-- ==== Sys2Proof/Word.lean ====
section
/-! DEFINITION. The word types of the OM-740: bytes, 48-bit mesh and local times, 48-bit link addresses. -/

namespace Sys2Proof

/-- One byte on a port. -/
abbrev Byte := BitVec 8

/-- A local or mesh time: a count of MU modulo 2^48 (00 section 3.1). -/
abbrev Time := BitVec 48

/-- A link address: 6 bytes (R182). -/
abbrev Addr := BitVec 48

end Sys2Proof
end

