-- ==== Sys2Proof/Syntax.lean ====
section
/-! DEFINITION. The commands of the block: one constructor of `Instr` per row of spec/opcode_table.json, and the
types of their operands. -/

namespace Sys2Proof

/-- The four ports (00 section 4). -/
inductive Port where
  | fp0 | fp1 | fp2 | fp3
  deriving DecidableEq, Repr

/-- The two client radios, on FP1 and FP2. -/
inductive Radio where
  | fp1 | fp2
  deriving DecidableEq, Repr

/-- The protocol part of a flow key (R49). -/
inductive Proto where
  | tcp | udp | other
  deriving DecidableEq, Repr

/-- The levels of the three straps, as the pins carry them at the release of RESET (00 section 4). -/
structure Straps where
  nodeId  : Nat
  gateway : Bool
  boot    : Bool
  deriving DecidableEq, Repr

/-- What the Control Unit knows of a request besides its parameters (R174, R175): the arrival port, the verdict
given on entry to the control queue, the tag, the destination node of its mesh header, and whether its body is shorter
than the parameters its code needs. -/
structure ReqHead where
  port   : Port
  denied : Bool
  tag    : Nat
  dest   : Nat
  short  : Bool
  deriving DecidableEq, Repr

/-- A calendar record as a beacon carries it (10.3). -/
structure CalRec where
  anchor  : Time
  weekSec : Nat
  gen     : Nat
  deriving DecidableEq, Repr

/-- A beacon body (10.3). -/
structure Beacon where
  root  : Nat
  prio  : Nat
  exp   : Nat
  disc  : Bool
  quiet : Bool
  mtb   : Time
  cal   : Option CalRec
  deriving DecidableEq, Repr

/-- An allowance as entries, contexts and RELEASE messages hold it (R140). -/
structure Allowance where
  remaining : Nat
  day       : Nat
  known     : Bool
  deriving DecidableEq, Repr

/-- A flow hint (section 3.9, 10.4). -/
structure Hint where
  proto : Proto
  rPort : Nat
  lPort : Nat
  rAddr : Nat
  deriving DecidableEq, Repr

/-- A CLAIM (10.4). -/
structure Claim where
  station  : Addr
  claimant : Nat
  prev     : Nat
  cutover  : Time
  deriving DecidableEq, Repr

/-- A RELEASE (10.4). -/
structure Release where
  station   : Addr
  sender    : Nat
  forwarded : Nat
  allow     : Allowance
  profile   : Nat
  hints     : List Hint
  deriving DecidableEq, Repr

/-- A HEARING report (10.4); the level is in 1/16 dBm. -/
structure HearingMsg where
  station  : Addr
  reporter : Nat
  level    : Int
  deriving DecidableEq, Repr

/-- What names an image (R151). -/
structure ImageInfo where
  id      : Nat
  version : Nat
  count   : Nat
  crc     : Nat
  deriving DecidableEq, Repr

/-- The result of an ANNOUNCE REPLY (10.5). -/
inductive AnnounceResult where
  | ready | busy | refused
  deriving DecidableEq, Repr

/-- The status of a MAP REPORT (10.5). -/
inductive MapStatus where
  | none | receiving | complete
  deriving DecidableEq, Repr

/-- The result of a PROPOSE REPLY (10.5). -/
inductive ProposeResult where
  | accept | defer | refused
  deriving DecidableEq, Repr

/-- The reason of a DEFER (10.5); `late` is the distributor's own code 3 (R171). -/
inductive DeferReason where
  | none | gameActive | outsideMaintenance | late
  deriving DecidableEq, Repr

/-- The response statuses (00 section 3.4, 10.8). -/
inductive Status where
  | ok | denied | malformed | notFound | tableFull | stagePending | tableInvalid | notRoot | wrongState | range
  deriving DecidableEq, Repr

/-- A MAP REPORT's content from its status onward (10.5). -/
structure MapContent where
  status : MapStatus
  more   : Bool
  ranges : List (Nat × Nat)
  deriving DecidableEq, Repr

/-- The mesh header fields of a DATA frame on FP3 that the intake reads (section 2.4). -/
structure DataHdr where
  fwd     : Bool
  cls     : Nat
  src     : Nat
  station : Addr
  deriving DecidableEq, Repr

/-- The mesh header prefix common to a CONTROL or NOTICE frame: its source and destination node. -/
structure NodePair where
  src : Nat
  dst : Nat
  deriving DecidableEq, Repr

/-- The fields of a WRITE ENTRY on the class rules, as the request carries them (R50): protocol and profile are the
raw codes (protocol ANY 1, TCP 2, UDP 3; profile 0 is ANY). -/
structure ClassRuleFields where
  proto     : Nat
  rLo       : Nat
  rHi       : Nat
  lLo       : Nat
  lHi       : Nat
  sLo       : Nat
  sHi       : Nat
  profile   : Nat
  cls       : Nat
  essential : Bool
  pin       : Bool
  deriving DecidableEq, Repr

/-- The fields of a WRITE ENTRY on the backhaul windows (R76); kind is the raw code. -/
structure WindowFields where
  start  : Nat
  length : Nat
  kind   : Nat
  owner  : Nat
  mask   : Nat
  k      : Nat
  c      : Nat
  deriving DecidableEq, Repr

/-- One LIMIT action as a request carries it: the raw action code (PASS 1, DEMOTE 2, DROP 3) and the demote target. -/
structure ActionFields where
  action : Nat
  target : Nat
  deriving DecidableEq, Repr

/-- The fields of a WRITE ENTRY on the profiles: any subset (R128); default state, exhausted state and actions are raw
codes. -/
structure ProfileFields where
  default   : Option Nat
  daily     : Option (List Nat)
  fallback  : Option Nat
  exhausted : Option Nat
  matrix    : Option (List ActionFields)
  deriving DecidableEq, Repr

/-- The fields of a WRITE ENTRY on the schedule windows (R129); kind is the raw code. -/
structure SchedWindowFields where
  profile : Nat
  start   : Nat
  stop    : Nat
  kind    : Nat
  deriving DecidableEq, Repr

/-- The subset of sync parameters a SET SYNC PARAMETERS carries (1.3). -/
structure SyncFields where
  priority    : Option Nat
  rootWatch   : Option Nat
  beaconWatch : Option Nat
  lockCount   : Option Nat
  lockWindow  : Option Nat
  exponent    : Option Nat
  deriving DecidableEq, Repr

/-- The subset of classifier parameters (R58). -/
structure ClassifierFields where
  pmin : Option Nat
  pmax : Option Nat
  smax : Option Nat
  tp   : Option Nat
  idle : Option Nat
  deriving DecidableEq, Repr

/-- The subset of queue parameters (R71). -/
structure QueueFields where
  limit   : Option Nat
  quantum : Option Nat
  cap     : Option Nat
  borrow  : Option Bool
  deriving DecidableEq, Repr

/-- The subset of steering parameters (section 5.6). -/
structure SteeringFields where
  hyst     : Option Int
  thresh   : Option Int
  gameHyst : Option Int
  gameThr  : Option Int
  dwell    : Option Nat
  holdOff  : Option Nat
  deriving DecidableEq, Repr

/-- The subset of handoff parameters (R104). -/
structure HandoffFields where
  claimDelay : Option Nat
  linger     : Option Nat
  tctx       : Option Nat
  deriving DecidableEq, Repr

/-- The subset of distribution parameters (R164): a pair is a timeout with its retries. -/
structure ImageParamFields where
  announce     : Option (Nat × Nat)
  map          : Option (Nat × Nat)
  verify       : Option (Nat × Nat)
  propose      : Option (Nat × Nat)
  roundsMax    : Option Nat
  interval     : Option Nat
  maxDeferrals : Option Nat
  forceAfter   : Option Bool
  lead         : Option Nat
  deriving DecidableEq, Repr

/-- The commands: one constructor per row of spec/opcode_table.json. A row that is a frame of one kind is the arrival
of that frame at its port; a row that is a request is the execution of that request by the Control Unit; a row that is
an observation of the clock names, where several records could meet it, the record's slot. -/
inductive Instr where
  | pinReset (straps : Straps)
  | cycleStart
  | windowOpening
  | frameRelease (port : Port)
  | transmitDone (port : Port) (ok : Bool)
  | frameArrival (port : Port) (error : Bool) (bytes : List Byte) (stamp : Option Time)
  | dataFrameArrival (port : Port) (hdr : Option DataHdr) (bytes : List Byte)
  | beaconReceived (b : Beacon) (ltCap : Time)
  | claimReceived (c : Claim)
  | releaseReceived (r : Release)
  | hearingReceived (h : HearingMsg)
  | controlRequestArrival (port : Port) (nodes : NodePair) (payload : List Byte)
  | responseNoticeRelay (notice : Bool) (nodes : NodePair) (payload : List Byte)
  | announce (src query : Nat) (img : ImageInfo) (replace : Bool)
  | blockMessage (id index crc : Nat) (data : List Byte)
  | mapQuery (src query id start : Nat)
  | verifyQuery (src query id : Nat)
  | propose (src query id : Nat) (cutover : Time) (force : Bool)
  | cancel (src query id : Nat)
  | quietRequest (src query id : Nat) (t : Time)
  | announceReply (query : Nat) (result : AnnounceResult)
  | mapReport (query : Nat) (report : MapContent)
  | verifyReport (query : Nat) (isMatch : Bool)
  | proposeReply (query : Nat) (result : ProposeResult) (reason : DeferReason)
  | cancelReply (query : Nat) (cancelled : Bool)
  | quietReply (query : Nat) (status : Status)
  | associate (radio : Radio) (station : Addr) (level : Int)
  | signal (radio : Radio) (station : Addr) (level : Int)
  | disassociate (radio : Radio) (station : Addr)
  | heard (radio : Radio) (station : Addr) (level : Int)
  | minuteEvent
  | pendingCutoverReached (slot : Nat)
  | lingerEnd (slot : Nat)
  | waitDeadline (slot : Nat)
  | predecessorDeadline (slot : Nat)
  | imageSwitch
  | distributionDone
  | queryTimeout
  | deferralIntervalEnd
  | streamDrained
  | flashOperationStart
  | eraseComplete (ok : Bool)
  | writeComplete (ok : Bool)
  | verifyComplete (ok : Bool) (data : List Byte)
  | blockReadComplete (ok : Bool) (data : List Byte)
  | unknownRequestCode (h : ReqHead) (code : Nat)
  | readStatus (h : ReqHead) (block : Nat)
  | readCounters (h : ReqHead) (block : Nat)
  | clearCounters (h : ReqHead)
  | readEntryClassRule (h : ReqHead) (index : Nat)
  | writeEntryClassRule (h : ReqHead) (index : Nat) (f : ClassRuleFields)
  | clearEntryClassRule (h : ReqHead) (index : Nat)
  | readEntryFlow (h : ReqHead) (slot : Nat)
  | writeEntryFlow (h : ReqHead) (slot : Nat)
  | clearEntryFlow (h : ReqHead) (slot : Nat)
  | readEntryBackhaulWindow (h : ReqHead) (active : Bool) (index : Nat)
  | writeEntryBackhaulWindow (h : ReqHead) (active : Bool) (index : Nat) (f : WindowFields)
  | clearEntryBackhaulWindow (h : ReqHead) (active : Bool) (index : Nat)
  | readEntryPeer (h : ReqHead) (node : Nat)
  | writeEntryPeer (h : ReqHead) (node rate delay : Nat)
  | clearEntryPeer (h : ReqHead) (node : Nat)
  | readEntryStation (h : ReqHead) (slot : Nat)
  | writeEntryStation (h : ReqHead) (slot : Nat)
  | clearEntryStation (h : ReqHead) (slot : Nat)
  | readEntryContext (h : ReqHead) (slot : Nat)
  | writeEntryContext (h : ReqHead) (slot : Nat)
  | clearEntryContext (h : ReqHead) (slot : Nat)
  | readEntryMembership (h : ReqHead) (active : Bool) (index : Nat)
  | writeEntryMembership (h : ReqHead) (active : Bool) (index : Nat) (addr : Addr) (profile : Nat)
  | clearEntryMembership (h : ReqHead) (active : Bool) (index : Nat)
  | readEntryProfile (h : ReqHead) (active : Bool) (id : Nat)
  | writeEntryProfile (h : ReqHead) (active : Bool) (id : Nat) (f : ProfileFields)
  | clearEntryProfile (h : ReqHead) (active : Bool) (id : Nat)
  | readEntryScheduleWindow (h : ReqHead) (active : Bool) (index : Nat)
  | writeEntryScheduleWindow (h : ReqHead) (active : Bool) (index : Nat) (f : SchedWindowFields)
  | clearEntryScheduleWindow (h : ReqHead) (active : Bool) (index : Nat)
  | readEntryQueueParameters (h : ReqHead) (index : Nat)
  | commitWindowTable (h : ReqHead) (method : Nat)
  | commitScheduleTables (h : ReqHead) (method : Nat)
  | discardWindowTable (h : ReqHead)
  | discardScheduleTables (h : ReqHead)
  | setEventEnables (h : ReqHead) (mask : Nat)
  | ackEvents (h : ReqHead) (mask : Nat)
  | setAdmission (h : ReqHead) (port setting : Nat)
  | registerController (h : ReqHead) (node port : Nat) (addr : Addr)
  | restart (h : ReqHead)
  | setRate (h : ReqHead) (n d : Nat)
  | setSyncParameters (h : ReqHead) (f : SyncFields)
  | syncControl (h : ReqHead) (enable : Bool)
  | presetTime (h : ReqHead) (delta : Int)
  | setCalendar (h : ReqHead) (weekSec : Nat)
  | requestQuiet (h : ReqHead) (t : Time)
  | setFramePathParameters (h : ReqHead) (gateway : Nat)
  | setClassifierParameters (h : ReqHead) (f : ClassifierFields)
  | setQueueParameters (h : ReqHead) (port cls : Nat) (f : QueueFields)
  | setBackhaulParameters (h : ReqHead) (overhead guardTime : Nat)
  | setSteeringParameters (h : ReqHead) (f : SteeringFields)
  | setHandoffParameters (h : ReqHead) (f : HandoffFields)
  | setScheduleParameters (h : ReqHead) (threshold : Nat)
  | readScheduleState (h : ReqHead) (station : Addr)
  | setOverride (h : ReqHead) (profile kind scope : Nat)
  | clearOverride (h : ReqHead) (profile kind : Nat)
  | toggleOverride (h : ReqHead) (profile kind scope : Nat)
  | grantBonus (h : ReqHead) (profile minutes : Nat)
  | imageOpen (h : ReqHead) (img : ImageInfo) (replace : Bool)
  | imageBlock (h : ReqHead) (index crc : Nat) (data : List Byte)
  | imageClose (h : ReqHead)
  | imageAbort (h : ReqHead)
  | imageCancel (h : ReqHead)
  | setImageParameters (h : ReqHead) (f : ImageParamFields)
  | distributeStart (h : ReqHead) (id : Nat) (replace : Bool) (targets : List Nat)
  | distributeAbort (h : ReqHead)
  deriving DecidableEq, Repr

end Sys2Proof
end

