-- ==== Sys2Proof/Config.lean ====
section
/-! DEFINITION. What is fixed for one part: the capacities of 00 section 5, and the free values the spec leaves open. -/

namespace Sys2Proof.Config

/-- Cells of the pool (section 2.3). -/
abbrev poolCells : Nat := 2048
/-- The management reserve, a floor for data allocations (R29). -/
abbrev reserve : Nat := 64
/-- Frames a management queue holds (R70). -/
abbrev mgmtDepth : Nat := 16
/-- Requests the control queue holds (R174). -/
abbrev controlDepth : Nat := 8
/-- Class rule entries (R50). -/
abbrev ruleCount : Nat := 48
/-- Flow table slots (section 3.4). -/
abbrev flowCount : Nat := 512
/-- Station table slots (section 5.1). -/
abbrev stationCount : Nat := 192
/-- Backhaul window entries (R76). -/
abbrev windowCount : Nat := 24
/-- Handoff context slots (R103). -/
abbrev contextCount : Nat := 16
/-- Membership entries (R127). -/
abbrev memberCount : Nat := 128
/-- Stored profiles (R128). -/
abbrev profileCount : Nat := 31
/-- Schedule window entries (R129). -/
abbrev schedCount : Nat := 256
/-- Flash write queue entries (R154). -/
abbrev writeDepth : Nat := 8
/-- Saturation value of every counter (R180). -/
abbrev counterMax : Nat := 4294967295

/-- FREE VALUE (log 9): numbers the spec does not state (the remaining seconds and day of an allowance whose known
flag is clear, the destination node in the detail of a TX_FAILED on FP0 to FP2). Indexed by `Io.freeCount`. -/
opaque freeNat : Nat → Nat

/-- FREE VALUE (log 9): the error e in the detail of the root's own MESH_TIME_STEP at a preset (R18, R21), which the
spec does not state. Indexed by `Io.freeCount`. -/
opaque freeError : Nat → Int

/-- FREE VALUE (log 10): whether, at a period end, the Station Unit's question about game activity is taken before the
Classifier's period end (R62, R98). Indexed by `Io.freeCount`. -/
opaque steerAsksFirst : Nat → Bool

/-- FREE VALUE (log 9): the source link address the part puts in the link header of a frame it sends on FP0 to FP2;
the spec gives the destination (R40) and not the source. -/
opaque ownLinkAddress : Addr

end Sys2Proof.Config
end

