-- ==== Sys2Proof/Machine/State.lean ====
section
/-! DEFINITION. The state of the block as plain data: one structure per unit of 00 section 2, the queue of waiting
commands, the reasons a step can stop, and the state after pin reset. -/

namespace Sys2Proof.Machine

/-! ## Containers of a fixed number of like things -/

/-- One value for each of the four ports. -/
structure PerPort (α : Type) where
  fp0 : α
  fp1 : α
  fp2 : α
  fp3 : α
  deriving DecidableEq, Repr

/-- One value for each of the four traffic classes (00 section 3.2). -/
structure PerClass (α : Type) where
  c0 : α
  c1 : α
  c2 : α
  c3 : α
  deriving DecidableEq, Repr

/-- One value for each of the nine event categories, in the order of their codes (10.6). -/
structure PerCategory (α : Type) where
  sync     : α
  station  : α
  handoff  : α
  schedule : α
  flow     : α
  backhaul : α
  buffer   : α
  image    : α
  control  : α
  deriving DecidableEq, Repr

/-! ## Time Base (chapter 1) -/

/-- The six sync states (section 1.5). -/
inductive SyncState where
  | free | listen | track | locked | holdover | root
  deriving DecidableEq, Repr

/-- The sync parameters (section 1.3). -/
structure SyncParams where
  priority    : Nat := 7
  rootWatch   : Nat := 32
  beaconWatch : Nat := 4
  lockCount   : Nat := 4
  lockWindow  : Nat := 8
  exponent    : Nat := 13
  deriving DecidableEq, Repr

/-- The followed root: its node id and the priority of its latest accepted beacon (R8). -/
structure RootRef where
  node : Nat
  prio : Nat
  deriving DecidableEq, Repr

/-- The calendar record with its valid flag and unmatched mark (section 1.10). -/
structure Calendar where
  anchor    : Time := 0
  weekSec   : Nat := 0
  gen       : Nat := 0
  valid     : Bool := false
  unmatched : Bool := false
  deriving DecidableEq, Repr

/-- The SYNC counters (section 1.12). -/
structure SyncCounters where
  beaconsSent     : Nat := 0
  beaconsReplaced : Nat := 0
  beaconsAccepted : Nat := 0
  beaconsIgnored  : Nat := 0
  rootConflict    : Nat := 0
  rateUpdates     : Nat := 0
  rateSkipped     : Nat := 0
  deriving DecidableEq, Repr

/-- The Time Base (chapter 1). The carried fraction of an MU is `fracNum / fracDen`, with `fracDen` a multiple of `n`
(log 11). -/
structure TimeBase where
  lt          : Time := 0
  fracNum     : Nat := 0
  fracDen     : Nat := 163840
  n           : Nat := 163840
  d           : Nat := 4096
  nBase       : Nat := 163840
  offset      : Time := 0
  params      : SyncParams := {}
  sync        : SyncState := .free
  followed    : Option RootRef := none
  consec      : Nat := 0
  listenWatch : Nat := 0
  beaconWatch : Nat := 0
  rateAnchor  : Option (Time × Time) := none
  cal         : Calendar := {}
  preset      : Option Int := none
  discOwed    : Bool := false
  quietList   : List Time := []
  quietMark   : Option Time := none
  quietNow    : Bool := false
  lastCount   : Nat := 0
  counters    : SyncCounters := {}
  deriving DecidableEq, Repr

/-! ## Frames -/

/-- The mesh header kinds (section 2.4). -/
inductive Kind where
  | data | beacon | control | notice | station | image
  deriving DecidableEq, Repr

/-- The STATION messages (10.4). -/
inductive StationMsg where
  | claim (c : Claim)
  | release (r : Release)
  | hearing (h : HearingMsg)
  deriving DecidableEq, Repr

/-- The IMAGE messages after their prefix (10.5). -/
inductive ImageBody where
  | announce (version count crc : Nat) (replace : Bool)
  | announceReply (r : AnnounceResult)
  | block (index crc : Nat) (data : List Byte)
  | mapQuery (start : Nat)
  | mapReport (m : MapContent)
  | verifyQuery
  | verifyReport (isMatch : Bool)
  | propose (c : Time) (force : Bool)
  | proposeReply (r : ProposeResult) (reason : DeferReason)
  | cancel
  | cancelReply (cancelled : Bool)
  | quietRequest (t : Time)
  | quietReply (st : Status)
  deriving DecidableEq, Repr

/-- An IMAGE message: the common prefix and the body (10.5). -/
structure ImageMsg where
  query : Nat
  id    : Nat
  body  : ImageBody
  deriving DecidableEq, Repr

/-- What a frame carries behind its mesh header: for DATA the carried link frame, for CONTROL and NOTICE the payload
bytes, for the other kinds the message. -/
inductive Content where
  | data (bytes : List Byte)
  | beacon (b : Beacon)
  | control (payload : List Byte)
  | notice (payload : List Byte)
  | station (m : StationMsg)
  | image (m : ImageMsg)
  deriving DecidableEq, Repr

/-- The mesh header fields besides version, kind and payload length (10.2). -/
structure MeshHdr where
  fwd     : Bool := false
  cls     : Nat := 0
  src     : Nat
  dst     : Nat
  station : Addr := 0
  deriving DecidableEq, Repr

/-- The context mark of a FWD frame: slot and generation of the context that placed it (R116). -/
structure Mark where
  slot : Nat
  gen  : Nat
  deriving DecidableEq, Repr

/-- A frame held by a queue or a transmitter: its mesh header if it leaves with one, the link address it goes to when
it leaves behind a link header (R40), its content, its class, the cells it holds, and the context mark of a FWD frame. -/
structure QFrame where
  hdr     : Option MeshHdr
  link    : Option Addr := none
  content : Content
  cls     : Nat := 0
  cells   : Nat
  mark    : Option Mark := none
  deriving DecidableEq, Repr

/-! ## Frame Path (chapter 2) -/

/-- The Frame Path counters (section 2.8). -/
structure FpCounters where
  framesIn        : PerPort Nat := ⟨0, 0, 0, 0⟩
  rxError         : PerPort Nat := ⟨0, 0, 0, 0⟩
  lengthError     : PerPort Nat := ⟨0, 0, 0, 0⟩
  poolFull        : PerPort Nat := ⟨0, 0, 0, 0⟩
  malformedHeader : PerPort Nat := ⟨0, 0, 0, 0⟩
  unknownKind     : PerPort Nat := ⟨0, 0, 0, 0⟩
  wrongPortKind   : PerPort Nat := ⟨0, 0, 0, 0⟩
  notForNode      : Nat := 0
  noRoute         : Nat := 0
  deriving DecidableEq, Repr

/-- The Frame Path (chapter 2): role and node id from the straps, the gateway node id, the pool's counts. -/
structure FramePath where
  nodeId     : Nat
  gateway    : Bool
  gatewayId  : Nat := 1
  freeCells  : Nat := Config.poolCells
  lowestFree : Nat := Config.poolCells
  counters   : FpCounters := {}
  deriving DecidableEq, Repr

/-! ## Classifier (chapter 3) -/

/-- The protocol field of a class rule (R50). -/
inductive RuleProto where
  | any | tcp | udp
  deriving DecidableEq, Repr

/-- A class rule entry (R50); the defaults are the pin reset values. `profile = none` is ANY. -/
structure ClassRule where
  inUse     : Bool := false
  proto     : RuleProto := .any
  rLo       : Nat := 0
  rHi       : Nat := 65535
  lLo       : Nat := 0
  lHi       : Nat := 65535
  sLo       : Nat := 0
  sHi       : Nat := 1518
  profile   : Option Nat := none
  cls       : Nat := 2
  essential : Bool := false
  pin       : Bool := false
  deriving DecidableEq, Repr

/-- A flow key (R49). -/
structure FlowKey where
  station : Addr
  proto   : Proto
  rPort   : Nat
  lPort   : Nat
  rAddr   : Nat
  deriving DecidableEq, Repr

/-- A flow record (section 3.4). -/
structure Flow where
  key        : FlowKey
  ruleClass  : Nat
  essential  : Bool
  pinned     : Bool
  rematch    : Bool := false
  q          : Nat := 0
  detected   : Bool := false
  hint       : Option Nat := none
  clsClass   : Nat
  effClass   : Nat
  suppressed : Bool := false
  packets    : Nat := 0
  bytes      : Nat := 0
  lastSeen   : Time
  cur        : Bool := false
  prev       : Bool := false
  idle       : Nat := 0
  deriving DecidableEq, Repr

/-- The classifier parameters (section 3.6). -/
structure ClassifierParams where
  pmin : Nat := 10
  pmax : Nat := 200
  smax : Nat := 300
  tp   : Nat := 3
  idle : Nat := 8
  deriving DecidableEq, Repr

/-- The Classifier counters (R66). -/
structure ClCounters where
  flowsCreated : Nat := 0
  flowsAged    : Nat := 0
  flowsEvicted : Nat := 0
  flowsRemoved : Nat := 0
  flowsCleared : Nat := 0
  flowFull     : Nat := 0
  rulesOnly    : Nat := 0
  gameStarts   : Nat := 0
  gameEnds     : Nat := 0
  hintFlows    : Nat := 0
  hintsMerged  : Nat := 0
  hintsRefused : Nat := 0
  deriving DecidableEq, Repr

/-- The Classifier (chapter 3). `params` are the parameters as written, `inUse` those of the latest period end (R58,
log 33). -/
structure Classifier where
  rules    : List ClassRule := List.replicate Config.ruleCount {}
  flows    : List (Option Flow) := List.replicate Config.flowCount none
  params   : ClassifierParams := {}
  inUse    : ClassifierParams := {}
  counters : ClCounters := {}
  deriving DecidableEq, Repr

/-! ## Egress Service (chapter 4) -/

/-- Quantum, cap and borrow flag of one port and class (section 4.1). -/
structure QParams where
  quantum : Nat := 4096
  cap     : Nat := 8192
  borrow  : Bool := false
  deriving DecidableEq, Repr

/-- A port's transmitter slot: free, sending a frame, or waiting for the transmit-done of a frame that RESTART gave up
(R73, R75, R88). -/
inductive Tx where
  | free
  | busy (f : QFrame)
  | givenUp (kind : Kind)
  deriving DecidableEq, Repr

/-- The Egress counters of one port (R87). -/
structure EsCounters where
  framesOut : Nat := 0
  txFail    : Nat := 0
  queueFull : Nat := 0
  mgmtFull  : Nat := 0
  oversize  : Nat := 0
  borrowed  : Nat := 0
  deriving DecidableEq, Repr

/-- The Egress Service's state of one port. `choiceDue` says that an event of R73 has happened since the last choice. -/
structure PortEgress where
  mgmt      : List QFrame := []
  queue     : PerClass (List QFrame) := ⟨[], [], [], []⟩
  credit    : PerClass Int := ⟨0, 0, 0, 0⟩
  limit     : PerClass Nat := ⟨384, 384, 384, 384⟩
  written   : PerClass QParams := ⟨{}, {}, { borrow := true }, { borrow := true }⟩
  inUse     : PerClass QParams := ⟨{}, {}, { borrow := true }, { borrow := true }⟩
  tx        : Tx := .free
  choiceDue : Bool := false
  counters  : EsCounters := {}
  deriving DecidableEq, Repr

/-- The kinds of backhaul window (section 4.4). -/
inductive WindowKind where
  | beacon | owned | opened
  deriving DecidableEq, Repr

/-- A backhaul window entry (R76). -/
structure Window where
  inUse  : Bool := false
  start  : Nat := 0
  length : Nat := 1
  kind   : WindowKind := .opened
  owner  : Nat := 0
  mask   : PerClass Bool := ⟨false, false, false, false⟩
  k      : Nat := 0
  c      : Nat := 0
  deriving DecidableEq, Repr

/-- The commit methods of the window table (R84). -/
inductive WindowMethod where
  | now | cycle | round | quiet
  deriving DecidableEq, Repr

/-- A peer entry (R79). -/
structure Peer where
  inUse : Bool := false
  rate  : Nat := 100
  delay : Nat := 0
  deriving DecidableEq, Repr

/-- The window in effect on FP3 (R77): a gap or the entry of an index. -/
inductive InEffect where
  | gap
  | window (index : Nat)
  deriving DecidableEq, Repr

/-- The reset window table (R76), at the reset exponent. -/
def resetWindows : List Window :=
  { inUse := true, start := 0, length := 512, kind := .beacon } ::
  { inUse := true, start := 512, length := 7680, kind := .opened, mask := ⟨true, true, true, true⟩ } ::
  List.replicate 22 {}

/-- The Egress Service (chapter 4). `seen` is the window in effect as last observed; none when the next observation of
a window is an opening whatever it was (R77). -/
structure Egress where
  ports     : PerPort PortEgress := ⟨{}, {}, {}, {}⟩
  beaconPos : Option QFrame := none
  active    : List Window := resetWindows
  staged    : List Window := resetWindows
  pending   : Option WindowMethod := none
  peers     : List Peer := List.replicate 8 {}
  overhead  : Nat := 40
  guardTime : Nat := 16
  seen      : Option InEffect := none
  deriving DecidableEq, Repr

/-! ## Control Unit (chapter 9) -/

/-- An admission setting (R173). -/
inductive Admission where
  | none | view | manage
  deriving DecidableEq, Repr

/-- A waiting request: its verdict, arrival port, destination node and payload from the direction byte on (R174). -/
structure CtlReq where
  denied  : Bool
  port    : Port
  dest    : Nat
  payload : List Byte
  deriving DecidableEq, Repr

/-- The controller registration (R176). -/
structure Registration where
  node : Nat
  port : Port
  addr : Addr
  deriving DecidableEq, Repr

/-- The nine event categories (section 9.5). -/
inductive Category where
  | sync | station | handoff | schedule | flow | backhaul | buffer | image | control
  deriving DecidableEq, Repr

/-- The effective (and base) states of a station (chapter 7). -/
inductive EffState where
  | allow | metered | limit | block
  deriving DecidableEq, Repr

/-- The commit methods of the schedule tables (R131). -/
inductive SchedMethod where
  | now | nextMinute | nextDay
  deriving DecidableEq, Repr

/-- The kinds and scopes of override (R144). -/
inductive OverrideKind where
  | pause | grant
  deriving DecidableEq, Repr

inductive OverrideScope where
  | untilEdge | latched
  deriving DecidableEq, Repr

/-- The roles of a handoff context (R103). -/
inductive Role where
  | arrive | depart
  deriving DecidableEq, Repr

/-- The distributor's phases (R164, R171). -/
inductive Phase where
  | announce | stream | poll | resend | verify | propose | armed | done | aborted
  deriving DecidableEq, Repr

/-- The causes of SLOT_FAILED (R171). -/
inductive SlotCause where
  | erase | write | read
  deriving DecidableEq, Repr

/-- The causes of DISTRIBUTION_ENDED (R171). -/
inductive EndCause where
  | done | abort | deferred | read
  deriving DecidableEq, Repr

/-- The queues an OVERSIZE detail can name (R81). -/
inductive QueueId where
  | mgmt
  | cls (k : Nat)
  deriving DecidableEq, Repr

/-- The events of the part with their details, category by category in the order of their event tables. -/
inductive Event where
  | lockLost (st : SyncState)
  | meshTimeStep (st : SyncState) (e : Int)
  | rateClamped (st : SyncState)
  | holdoverEntered (st : SyncState)
  | rootEntered (st : SyncState)
  | rootYielded (st : SyncState)
  | rootChanged (st : SyncState)
  | steered (station : Addr) (node : Nat) (s0 sb : Int)
  | noEntry (station : Addr) (port : Port)
  | contextTableFull (station : Addr) (role : Role)
  | contextLost (station : Addr) (peer : Nat)
  | holdOverflow (station : Addr) (drops : Nat)
  | stateChanged (station : Addr) (old new : EffState)
  | tablesCommitted (m : SchedMethod) (minute : Option Nat)
  | overrideChanged (profile : Nat) (kind : OverrideKind) (scope : OverrideScope)
  | overrideEnded (profile : Nat) (kind : OverrideKind)
  | gameStarted (key : FlowKey) (slot q : Nat)
  | gameEnded (key : FlowKey) (slot : Nat)
  | tableFull (key : FlowKey)
  | hintRefused (key : FlowKey)
  | windowCommitted (m : WindowMethod) (mt : Time)
  | oversize (port : Port) (queue : QueueId) (length dst index : Nat)
  | backhaulTxFailed (port : Port) (kind : Kind) (dst : Nat)
  | queueDrop (port : Port) (cls cells : Nat)
  | mgmtDrop (port : Port) (kind : Kind)
  | bufferTxFailed (port : Port) (kind : Kind) (dst : Nat)
  | poolExhausted (port : Port) (kind : Kind) (cells : Nat)
  | slotFailed (slot : Bool) (cause : SlotCause)
  | verifyDone (slot : Bool) (isMatch : Bool)
  | armed (id : Nat) (c : Time)
  | disarmed (id : Nat) (c : Time)
  | switched (slot : Bool) (id : Nat) (c : Time)
  | targetLost (node : Nat) (phase : Phase)
  | quietRefused (status : Option Status)
  | proposalDeferred (node : Nat) (reason : DeferReason)
  | cancelLost (node : Nat) (c : Time)
  | distributionEnded (cause : EndCause)
  | queueOverflow (port : Port) (tag : Nat)
  | requestDenied (port : Port) (code : Nat)
  | restarted (node : Nat) (mt : Time)
  deriving DecidableEq, Repr

/-- An event record (section 9.5). -/
structure EventRec where
  pending : Bool := false
  enable  : Bool := false
  first   : Option Event := none
  count   : Nat := 0
  deriving DecidableEq, Repr

/-- The Control Unit's own counters (R180). -/
structure CuCounters where
  requestsExecuted : Nat := 0
  requestsDenied   : Nat := 0
  controlOverflow  : Nat := 0
  controlMalformed : Nat := 0
  responsesLost    : Nat := 0
  noticesSent      : Nat := 0
  noticesLost      : Nat := 0
  deriving DecidableEq, Repr

/-- The Control Unit (chapter 9). -/
structure ControlUnit where
  admission : PerPort Admission := ⟨.manage, .none, .none, .manage⟩
  queue     : List CtlReq := []
  reg       : Option Registration := none
  events    : PerCategory EventRec := ⟨{}, {}, {}, {}, {}, {}, {}, {}, {}⟩
  counters  : CuCounters := {}
  deriving DecidableEq, Repr

/-- The units every other unit builds, places and reports through: Frame Path, Egress Service and Control Unit, with
the model's index of free values (log 9). -/
structure Io where
  fp        : FramePath
  es        : Egress := {}
  cu        : ControlUnit := {}
  freeCount : Nat := 0
  deriving DecidableEq, Repr

/-! ## Station Unit (chapter 5) -/

/-- The state of a station entry with the fields that go with it (section 5.1). An ARRIVING entry without a port has
the left mark set. -/
inductive StState where
  | serving (radio : Radio) (allow : Allowance)
  | arriving (radio : Option Radio) (charge : Nat)
  | detached (allow : Allowance)
  | away (server : Option Nat) (pending : Option (Nat × Time))
  deriving DecidableEq, Repr

/-- A hearing record: reporting node, level in 1/16 dBm, last report MT (section 5.1). -/
structure Hearing where
  node  : Nat
  level : Int
  mt    : Time
  deriving DecidableEq, Repr

/-- A station entry (section 5.1). `eff` is the effective state the Schedule Engine holds for a SERVING or ARRIVING
station (R137). -/
structure Station where
  addr     : Addr
  st       : StState
  profile  : Nat
  level    : Option Int := none
  own      : Option Int := none
  heard    : Bool := false
  hearings : List (Option Hearing) := [none, none, none, none]
  activity : Nat := 0
  dwell    : Nat := 0
  holdOff  : Nat := 0
  since    : Time
  eff      : Option EffState := none
  deriving DecidableEq, Repr

/-- The steering parameters (section 5.6). -/
structure SteeringParams where
  hyst     : Int := 8
  thresh   : Int := -70
  gameHyst : Int := 12
  gameThr  : Int := -78
  dwell    : Nat := 3
  holdOff  : Nat := 16
  deriving DecidableEq, Repr

/-- A STEER as the steering output of a radio carries it (R98). -/
structure Steer where
  radio   : Radio
  station : Addr
  node    : Nat
  deriving DecidableEq, Repr

/-- The Station Unit counters (R101). -/
structure SuCounters where
  associations         : Nat := 0
  implicitAssociations : Nat := 0
  disassociations      : Nat := 0
  eventsIgnored        : Nat := 0
  heardDropped         : Nat := 0
  stationFull          : Nat := 0
  stationsEvicted      : Nat := 0
  detachedPurged       : Nat := 0
  stationsCleared      : Nat := 0
  hearingsSent         : Nat := 0
  hearingsReceived     : Nat := 0
  hearingsIgnored      : Nat := 0
  steersSent           : Nat := 0
  deriving DecidableEq, Repr

/-- The Station Unit (chapter 5). `steers` are the STEERs put out at the latest period end (log 12). -/
structure StationUnit where
  table    : List (Option Station) := List.replicate Config.stationCount none
  scanPos  : Nat := 0
  params   : SteeringParams := {}
  steers   : List Steer := []
  counters : SuCounters := {}
  deriving DecidableEq, Repr

/-! ## Handoff Unit (chapter 6) -/

/-- What a context takes from a RELEASE: the expected count and the carried allowance (R110). -/
structure Taken where
  expected : Nat
  carried  : Allowance
  deriving DecidableEq, Repr

/-- The fields an ARRIVE context and a DEPART context in AWAIT_PREDECESSOR share: they wait for a RELEASE (R103). -/
structure Waiting where
  hold     : List QFrame := []
  received : Nat := 0
  taken    : Option Taken := none
  own      : Option Allowance := none
  deadline : Time
  deriving DecidableEq, Repr

/-- Role and state of a context with the fields that go with them (R103): ARRIVE is WAITING until `taken` is some and
then COUNTING; DEPART is FORWARDING or FLUSHING; `await` is AWAIT_PREDECESSOR. `linger` is the linger the context took
on entering FORWARDING (R104). -/
inductive CtxState where
  | arrive (w : Waiting)
  | await (w : Waiting) (predecessor : Nat) (charge : Nat) (cutover : Time) (forwarded outstanding : Nat)
  | depart (flushing : Bool) (cutover : Time) (linger : Nat) (forwarded outstanding : Nat) (snapshot : Option Allowance)
  deriving DecidableEq, Repr

/-- A handoff context (R103). -/
structure Context where
  station : Addr
  peer    : Nat
  drops   : Nat := 0
  hints   : List Hint := []
  st      : CtxState
  deriving DecidableEq, Repr

/-- A context slot with its generation (R103). -/
structure CtxSlot where
  gen : Nat := 0
  ctx : Option Context := none
  deriving DecidableEq, Repr

/-- The handoff parameters (R103). -/
structure HandoffParams where
  claimDelay : Nat := 3
  linger     : Nat := 2
  tctx       : Nat := 200000
  deriving DecidableEq, Repr

/-- The Handoff Unit counters (R125). -/
structure HuCounters where
  claimsSent        : Nat := 0
  claimsReceived    : Nat := 0
  claimsIgnored     : Nat := 0
  resumes           : Nat := 0
  departures        : Nat := 0
  conversions       : Nat := 0
  arrivalsCompleted : Nat := 0
  contextsLost      : Nat := 0
  contextFull       : Nat := 0
  earlyReleases     : Nat := 0
  releasesSent      : Nat := 0
  releasesReceived  : Nat := 0
  lateRelease       : Nat := 0
  secondRelease     : Nat := 0
  fwdSent           : Nat := 0
  lateFwd           : Nat := 0
  holdDrop          : Nat := 0
  deriving DecidableEq, Repr

/-- The Handoff Unit (chapter 6). -/
structure HandoffUnit where
  slots    : List CtxSlot := List.replicate Config.contextCount {}
  params   : HandoffParams := {}
  counters : HuCounters := {}
  deriving DecidableEq, Repr

/-! ## Schedule Engine (chapter 7) -/

/-- A membership entry (R127). -/
structure Member where
  inUse   : Bool := false
  addr    : Addr := 0
  profile : Nat := 1
  deriving DecidableEq, Repr

/-- A LIMIT action (R128). -/
inductive Action where
  | pass
  | demote (target : Nat)
  | drop
  deriving DecidableEq, Repr

/-- A stored profile; the defaults are the reset values (R128). -/
structure Profile where
  default   : EffState := .allow
  daily     : List Nat := List.replicate 7 1440
  fallback  : Nat := 0
  exhausted : EffState := .limit
  matrix    : PerClass Action := ⟨.demote 2, .demote 2, .pass, .pass⟩
  deriving DecidableEq, Repr

/-- The kinds of schedule window (R129). -/
inductive SchedKind where
  | base (e : EffState)
  | maintenance
  deriving DecidableEq, Repr

/-- A schedule window entry (R129). -/
structure SchedWindow where
  inUse   : Bool := false
  profile : Nat := 0
  start   : Nat := 0
  stop    : Nat := 1
  kind    : SchedKind := .maintenance
  deriving DecidableEq, Repr

/-- The three tables committed together (section 7.1). -/
structure SchedTables where
  members  : List Member := List.replicate Config.memberCount {}
  profiles : List Profile := List.replicate Config.profileCount {}
  windows  : List SchedWindow := List.replicate Config.schedCount {}
  deriving DecidableEq, Repr

/-- An override with its scope and the base state recorded when it was set (R144). -/
structure Override where
  scope : OverrideScope
  base  : EffState
  deriving DecidableEq, Repr

/-- A profile's overrides (R144). -/
structure Overrides where
  pause : Option Override := none
  grant : Option Override := none
  deriving DecidableEq, Repr

/-- The Schedule Engine counters (R149). -/
structure SeCounters where
  scheduleDrop   : PerPort Nat := ⟨0, 0, 0, 0⟩
  stateChanges   : Nat := 0
  minuteEvents   : Nat := 0
  jumps          : Nat := 0
  minutesCharged : Nat := 0
  refills        : Nat := 0
  fallbacks      : Nat := 0
  deriving DecidableEq, Repr

/-- The Schedule Engine (chapter 7). -/
structure ScheduleEngine where
  active    : SchedTables := {}
  staged    : SchedTables := {}
  pending   : Option SchedMethod := none
  overrides : List Overrides := List.replicate Config.profileCount {}
  ts        : Time := 0
  minute    : Option Nat := none
  threshold : Nat := 4096
  counters  : SeCounters := {}
  deriving DecidableEq, Repr

/-! ## Image Engine (chapter 8) -/

/-- Where a verify's outcome goes (R151): the controller, or the node and number of the query that asked. -/
inductive ReplyTo where
  | controller
  | node (n query : Nat)
  deriving DecidableEq, Repr

/-- The states of a slot that holds an image, with their own fields (R151). -/
inductive SlotState where
  | erasing
  | receiving
  | complete
  | verifying (reply : ReplyTo)
  | verified
  | armed (c : Time)
  | switched (c : Time)
  | failed
  deriving DecidableEq, Repr

/-- The record of a slot in every state but EMPTY (R151). -/
structure SlotRec where
  img      : ImageInfo
  map      : List Bool
  received : Nat := 0
  failures : Nat := 0
  st       : SlotState
  deriving DecidableEq, Repr

/-- A slot: its load number, and its record unless it is EMPTY (R151). -/
structure Slot where
  load : Nat := 0
  held : Option SlotRec := none
  deriving DecidableEq, Repr

/-- An entry of the flash write queue (R154). -/
structure WriteEntry where
  load  : Nat
  index : Nat
  data  : List Byte
  cells : Nat
  begun : Bool := false
  deriving DecidableEq, Repr

/-- A slot operation waiting for the port (R152). -/
inductive SlotOp where
  | erase | verify
  deriving DecidableEq, Repr

/-- The operation in flight on the flash port (section 8.2), with the slot it works for and that slot's load number when
it began (R151). A block read is `live` while the distribution that wanted it runs. -/
inductive FlashOp where
  | erase (slot : Bool) (load : Nat)
  | write (slot : Bool) (load index : Nat)
  | verify (slot : Bool) (load : Nat)
  | blockRead (slot : Bool) (load index cells : Nat) (live : Bool)
  deriving DecidableEq, Repr

/-- The states of a distribution target (R164 to R169). -/
inductive TargetState where
  | pending | unreachable | ready | refused | missing | complete | failed | verifying | verified | accepted
  deriving DecidableEq, Repr

/-- A distribution target (R164). -/
structure Target where
  node    : Nat
  st      : TargetState := .pending
  retries : Nat := 0
  missing : Nat := 0
  deriving DecidableEq, Repr

/-- The queries a distributor sends (R165). All but the quiet request are to the target at the record's cursor. -/
inductive QueryKind where
  | announce
  | map (start : Nat)
  | verify
  | propose
  | cancel
  | quiet (root : Nat)
  deriving DecidableEq, Repr

/-- The outstanding query (R165). -/
structure Query where
  num      : Nat
  kind     : QueryKind
  deadline : Time
  deriving DecidableEq, Repr

/-- What a proposal pass is doing (R168, R169). -/
inductive PassStage where
  | asking
  | proposing
  | cancelling
  | waiting (wake : Time)
  deriving DecidableEq, Repr

/-- A distribution record (R164). `cursor` is the position in the target list the running phase has reached,
`quietRetries` the retry count of the quiet request (R168). -/
structure Dist where
  phase        : Phase
  img          : ImageInfo
  replace      : Bool
  targets      : List Target
  round        : Nat := 0
  deferrals    : Nat := 0
  resend       : List Bool
  streamPos    : Nat := 0
  cutover      : Option Time := none
  forced       : Bool := false
  cursor       : Nat := 0
  query        : Option Query := none
  stage        : PassStage := .asking
  quietRetries : Nat := 0
  deriving DecidableEq, Repr

/-- The distribution parameters (section 8.5). -/
structure ImageParams where
  announceTimeout : Nat := 500000
  announceRetries : Nat := 3
  mapTimeout      : Nat := 200000
  mapRetries      : Nat := 3
  verifyTimeout   : Nat := 30000000
  verifyRetries   : Nat := 1
  proposeTimeout  : Nat := 500000
  proposeRetries  : Nat := 3
  roundsMax       : Nat := 8
  interval        : Nat := 15
  maxDeferrals    : Nat := 16
  forceAfter      : Bool := false
  lead            : Nat := 4
  deriving DecidableEq, Repr

/-- The Image Engine counters (R171). -/
structure IeCounters where
  badBlock         : Nat := 0
  blocksWritten    : Nat := 0
  writeFailures    : Nat := 0
  writeQueueFull   : Nat := 0
  blocksIgnored    : Nat := 0
  staleCompletions : Nat := 0
  blocksSent       : Nat := 0
  queriesSent      : Nat := 0
  queryTimeouts    : Nat := 0
  lateReplies      : Nat := 0
  deferrals        : Nat := 0
  deriving DecidableEq, Repr

/-- The Image Engine (chapter 8). A slot number is a Bool: false is slot 0. -/
structure ImageEngine where
  slot0     : Slot := {}
  slot1     : Slot := {}
  active    : Bool
  switchOut : Option Bool := none
  writeQ    : List WriteEntry := []
  pendingOp : Option SlotOp := none
  inFlight  : Option FlashOp := none
  dist      : Option Dist := none
  queryNum  : Nat := 0
  params    : ImageParams := {}
  counters  : IeCounters := {}
  deriving DecidableEq, Repr

/-! ## The whole block -/

/-- The state of the block. `pending` is the queue of commands that wait, first in, first out. -/
structure State where
  pending : List Instr := []
  io      : Io
  tb      : TimeBase := {}
  cl      : Classifier := {}
  su      : StationUnit := {}
  hu      : HandoffUnit := {}
  se      : ScheduleEngine := {}
  ie      : ImageEngine
  deriving DecidableEq, Repr

/-- The reasons a step can stop with a fault. There is none: the spec gives every row an effect in every state. -/
inductive Fault : Type
  deriving DecidableEq, Repr

/-- The reasons a command can be refused. -/
inductive Refusal where
  /-- Raised by an arm of `exec` whose command has no meaning yet; no arm of this model raises it. Safe. -/
  | notModelled (mnemonic : String)
  deriving DecidableEq, Repr

/-- The state after a pin reset that sampled the given straps (00 sections 3.5 and 4; every chapter's "Values after
reset"). -/
def State.pinReset (st : Straps) : State where
  io := { fp := { nodeId := st.nodeId + 1, gateway := st.gateway } }
  ie := { active := st.boot }

/-- The machine right after reset. The straps of this machine are the model's choice (log 1): NODE_ID 0, GATEWAY set,
BOOT 0. -/
def State.reset : State := State.pinReset { nodeId := 0, gateway := true, boot := false }

end Sys2Proof.Machine
end

