-- ==== Sys2Proof/Machine/Flags.lean ====
section
/-! DEFINITION. The small conditions and numbers the units share: reaching a time, saturation, clamps, the members of
the fixed groups, and the codes of names in messages (10.4 to 10.8). -/

namespace Sys2Proof.Machine

/-! ## Fixed groups -/

def PerPort.get {α : Type} (v : PerPort α) : Port → α
  | .fp0 => v.fp0
  | .fp1 => v.fp1
  | .fp2 => v.fp2
  | .fp3 => v.fp3

def PerPort.set {α : Type} (v : PerPort α) (p : Port) (a : α) : PerPort α :=
  match p with
  | .fp0 => { v with fp0 := a }
  | .fp1 => { v with fp1 := a }
  | .fp2 => { v with fp2 := a }
  | .fp3 => { v with fp3 := a }

def PerPort.map {α β : Type} (f : α → β) (v : PerPort α) : PerPort β := ⟨f v.fp0, f v.fp1, f v.fp2, f v.fp3⟩

def PerPort.toList {α : Type} (v : PerPort α) : List α := [v.fp0, v.fp1, v.fp2, v.fp3]

/-- The member of a class number; numbers above 3 name class 3, as R50 clamps them. -/
def PerClass.get {α : Type} (v : PerClass α) (k : Nat) : α :=
  match k with
  | 0 => v.c0
  | 1 => v.c1
  | 2 => v.c2
  | _ => v.c3

def PerClass.set {α : Type} (v : PerClass α) (k : Nat) (a : α) : PerClass α :=
  match k with
  | 0 => { v with c0 := a }
  | 1 => { v with c1 := a }
  | 2 => { v with c2 := a }
  | _ => { v with c3 := a }

def PerClass.map {α β : Type} (f : α → β) (v : PerClass α) : PerClass β := ⟨f v.c0, f v.c1, f v.c2, f v.c3⟩

def PerClass.toList {α : Type} (v : PerClass α) : List α := [v.c0, v.c1, v.c2, v.c3]

def PerCategory.get {α : Type} (v : PerCategory α) : Category → α
  | .sync => v.sync
  | .station => v.station
  | .handoff => v.handoff
  | .schedule => v.schedule
  | .flow => v.flow
  | .backhaul => v.backhaul
  | .buffer => v.buffer
  | .image => v.image
  | .control => v.control

def PerCategory.set {α : Type} (v : PerCategory α) (c : Category) (a : α) : PerCategory α :=
  match c with
  | .sync => { v with sync := a }
  | .station => { v with station := a }
  | .handoff => { v with handoff := a }
  | .schedule => { v with schedule := a }
  | .flow => { v with flow := a }
  | .backhaul => { v with backhaul := a }
  | .buffer => { v with buffer := a }
  | .image => { v with image := a }
  | .control => { v with control := a }

/-- The categories in the order of their codes (10.6). -/
def Category.all : List Category :=
  [.sync, .station, .handoff, .schedule, .flow, .backhaul, .buffer, .image, .control]

def Port.all : List Port := [.fp0, .fp1, .fp2, .fp3]

/-- The port number, 0 to 3, as R71 numbers ports in its index. -/
def portNum : Port → Nat
  | .fp0 => 0
  | .fp1 => 1
  | .fp2 => 2
  | .fp3 => 3

def portOf : Nat → Option Port
  | 0 => some .fp0
  | 1 => some .fp1
  | 2 => some .fp2
  | 3 => some .fp3
  | _ => none

def radioPort : Radio → Port
  | .fp1 => .fp1
  | .fp2 => .fp2

/-! ## Numbers -/

/-- A counter rises by one and stays at 4,294,967,295 (R180). -/
def satInc (n : Nat) : Nat := min (n + 1) Config.counterMax

/-- A 32-bit quantity that saturates takes `k` more (section 3.4, 5.1). -/
def satAdd (n k : Nat) : Nat := min (n + k) Config.counterMax

/-- A 16-bit count that saturates (R103, 9.5). -/
def satInc16 (n : Nat) : Nat := min (n + 1) 65535

/-- An 8-bit count that saturates (R8, section 3.4). -/
def satInc8 (n : Nat) : Nat := min (n + 1) 255

/-- A count of one port rises by one. -/
def PerPort.inc (v : PerPort Nat) (p : Port) : PerPort Nat := v.set p (satInc (v.get p))

/-- A numeric parameter is clamped to its range (00 section 3.4). -/
def clamp (lo hi n : Nat) : Nat := max lo (min hi n)

def clampInt (lo hi n : Int) : Int := max lo (min hi n)

/-- "MT reaches T": the signed difference is zero or greater (00 section 3.1). -/
def reached (now t : Time) : Bool := 0 ≤ (now - t).toInt

/-- The cells a frame of a length occupies (00 section 3.3). -/
def cellsFor (len : Nat) : Nat := (len + 255) / 256

/-- A group address has the individual/group bit of its first byte set (PRESUMED, log 7). -/
def isGroup (a : Addr) : Bool := a.getLsbD 40

/-! ## Codes -/

def kindCode : Kind → Nat
  | .data => 1
  | .beacon => 2
  | .control => 3
  | .notice => 4
  | .station => 5
  | .image => 6

def kindOf : Nat → Option Kind
  | 1 => some .data
  | 2 => some .beacon
  | 3 => some .control
  | 4 => some .notice
  | 5 => some .station
  | 6 => some .image
  | _ => none

def protoCode : Proto → Nat
  | .tcp => 1
  | .udp => 2
  | .other => 3

def protoOf : Nat → Option Proto
  | 1 => some .tcp
  | 2 => some .udp
  | 3 => some .other
  | _ => none

def syncCode : SyncState → Nat
  | .free => 1
  | .listen => 2
  | .track => 3
  | .locked => 4
  | .holdover => 5
  | .root => 6

def statusCode : Status → Nat
  | .ok => 0
  | .denied => 1
  | .malformed => 2
  | .notFound => 3
  | .tableFull => 4
  | .stagePending => 5
  | .tableInvalid => 6
  | .notRoot => 7
  | .wrongState => 8
  | .range => 9

def statusOf : Nat → Option Status
  | 0 => some .ok
  | 1 => some .denied
  | 2 => some .malformed
  | 3 => some .notFound
  | 4 => some .tableFull
  | 5 => some .stagePending
  | 6 => some .tableInvalid
  | 7 => some .notRoot
  | 8 => some .wrongState
  | 9 => some .range
  | _ => none

def effCode : EffState → Nat
  | .allow => 1
  | .metered => 2
  | .limit => 3
  | .block => 4

def effOf : Nat → Option EffState
  | 1 => some .allow
  | 2 => some .metered
  | 3 => some .limit
  | 4 => some .block
  | _ => none

def announceCode : AnnounceResult → Nat
  | .ready => 1
  | .busy => 2
  | .refused => 3

def announceOf : Nat → Option AnnounceResult
  | 1 => some .ready
  | 2 => some .busy
  | 3 => some .refused
  | _ => none

def mapCode : MapStatus → Nat
  | .none => 0
  | .receiving => 1
  | .complete => 2

def mapOf : Nat → Option MapStatus
  | 0 => some .none
  | 1 => some .receiving
  | 2 => some .complete
  | _ => none

def proposeCode : ProposeResult → Nat
  | .accept => 1
  | .defer => 2
  | .refused => 3

def proposeOf : Nat → Option ProposeResult
  | 1 => some .accept
  | 2 => some .defer
  | 3 => some .refused
  | _ => none

/-- The reason codes of a PROPOSE REPLY, with LATE 3 (10.5, R171). -/
def reasonCode : DeferReason → Nat
  | .none => 0
  | .gameActive => 1
  | .outsideMaintenance => 2
  | .late => 3

/-- The reasons a PROPOSE REPLY may carry (10.5). -/
def reasonOf : Nat → Option DeferReason
  | 0 => some .none
  | 1 => some .gameActive
  | 2 => some .outsideMaintenance
  | _ => none

def windowMethodCode : WindowMethod → Nat
  | .now => 1
  | .cycle => 2
  | .round => 3
  | .quiet => 4

def windowMethodOf : Nat → Option WindowMethod
  | 1 => some .now
  | 2 => some .cycle
  | 3 => some .round
  | 4 => some .quiet
  | _ => none

def schedMethodCode : SchedMethod → Nat
  | .now => 1
  | .nextMinute => 2
  | .nextDay => 3

def schedMethodOf : Nat → Option SchedMethod
  | 1 => some .now
  | 2 => some .nextMinute
  | 3 => some .nextDay
  | _ => none

def overrideKindCode : OverrideKind → Nat
  | .pause => 1
  | .grant => 2

def overrideKindOf : Nat → Option OverrideKind
  | 1 => some .pause
  | 2 => some .grant
  | _ => none

def scopeCode : OverrideScope → Nat
  | .untilEdge => 1
  | .latched => 2

def scopeOf : Nat → Option OverrideScope
  | 1 => some .untilEdge
  | 2 => some .latched
  | _ => none

def roleCode : Role → Nat
  | .arrive => 1
  | .depart => 2

/-- The phases are numbered from 1 (R171). -/
def phaseCode : Phase → Nat
  | .announce => 1
  | .stream => 2
  | .poll => 3
  | .resend => 4
  | .verify => 5
  | .propose => 6
  | .armed => 7
  | .done => 8
  | .aborted => 9

def slotCauseCode : SlotCause → Nat
  | .erase => 1
  | .write => 2
  | .read => 3

def endCauseCode : EndCause → Nat
  | .done => 1
  | .abort => 2
  | .deferred => 3
  | .read => 4

/-- The queue of an OVERSIZE detail: the management queue 1, class queues 2 to 5, as section 4.1 lists them (log 8). -/
def queueCode : QueueId → Nat
  | .mgmt => 1
  | .cls k => k + 2

def admissionCode : Admission → Nat
  | .none => 1
  | .view => 2
  | .manage => 3

def admissionOf : Nat → Option Admission
  | 1 => some .none
  | 2 => some .view
  | 3 => some .manage
  | _ => none

def windowKindCode : WindowKind → Nat
  | .beacon => 1
  | .owned => 2
  | .opened => 3

def windowKindOf : Nat → Option WindowKind
  | 1 => some .beacon
  | 2 => some .owned
  | 3 => some .opened
  | _ => none

def ruleProtoCode : RuleProto → Nat
  | .any => 1
  | .tcp => 2
  | .udp => 3

def ruleProtoOf : Nat → Option RuleProto
  | 1 => some .any
  | 2 => some .tcp
  | 3 => some .udp
  | _ => none

def schedKindCode : SchedKind → Nat
  | .base e => effCode e
  | .maintenance => 5

def schedKindOf : Nat → Option SchedKind
  | 5 => some .maintenance
  | n => (effOf n).map .base

def actionCode : Action → Nat
  | .pass => 1
  | .demote _ => 2
  | .drop => 3

def stCode : StState → Nat
  | .serving _ _ => 1
  | .arriving _ _ => 2
  | .detached _ => 3
  | .away _ _ => 4

def targetCode : TargetState → Nat
  | .pending => 1
  | .unreachable => 2
  | .ready => 3
  | .refused => 4
  | .missing => 5
  | .complete => 6
  | .failed => 7
  | .verifying => 8
  | .verified => 9
  | .accepted => 10

/-- The slot states numbered from 1 as section 8.1 tables them; EMPTY is 1. -/
def slotStateCode : Option SlotState → Nat
  | none => 1
  | some .erasing => 2
  | some .receiving => 3
  | some .complete => 4
  | some (.verifying _) => 5
  | some .verified => 6
  | some (.armed _) => 7
  | some (.switched _) => 8
  | some .failed => 9

def categoryCode : Category → Nat
  | .sync => 1
  | .station => 2
  | .handoff => 3
  | .schedule => 4
  | .flow => 5
  | .backhaul => 6
  | .buffer => 7
  | .image => 8
  | .control => 9

/-! ## Events -/

/-- The category and the code of an event: its category's event table, numbered from 1 (10.6). -/
def eventCode : Event → Category × Nat
  | .lockLost _ => (.sync, 1)
  | .meshTimeStep _ _ => (.sync, 2)
  | .rateClamped _ => (.sync, 3)
  | .holdoverEntered _ => (.sync, 4)
  | .rootEntered _ => (.sync, 5)
  | .rootYielded _ => (.sync, 6)
  | .rootChanged _ => (.sync, 7)
  | .steered _ _ _ _ => (.station, 1)
  | .noEntry _ _ => (.station, 2)
  | .contextTableFull _ _ => (.handoff, 1)
  | .contextLost _ _ => (.handoff, 2)
  | .holdOverflow _ _ => (.handoff, 3)
  | .stateChanged _ _ _ => (.schedule, 1)
  | .tablesCommitted _ _ => (.schedule, 2)
  | .overrideChanged _ _ _ => (.schedule, 3)
  | .overrideEnded _ _ => (.schedule, 4)
  | .gameStarted _ _ _ => (.flow, 1)
  | .gameEnded _ _ => (.flow, 2)
  | .tableFull _ => (.flow, 3)
  | .hintRefused _ => (.flow, 4)
  | .windowCommitted _ _ => (.backhaul, 1)
  | .oversize _ _ _ _ _ => (.backhaul, 2)
  | .backhaulTxFailed _ _ _ => (.backhaul, 3)
  | .queueDrop _ _ _ => (.buffer, 1)
  | .mgmtDrop _ _ => (.buffer, 2)
  | .bufferTxFailed _ _ _ => (.buffer, 3)
  | .poolExhausted _ _ _ => (.buffer, 4)
  | .slotFailed _ _ => (.image, 1)
  | .verifyDone _ _ => (.image, 2)
  | .armed _ _ => (.image, 3)
  | .disarmed _ _ => (.image, 4)
  | .switched _ _ _ => (.image, 5)
  | .targetLost _ _ => (.image, 6)
  | .quietRefused _ => (.image, 7)
  | .proposalDeferred _ _ => (.image, 8)
  | .cancelLost _ _ => (.image, 9)
  | .distributionEnded _ => (.image, 10)
  | .queueOverflow _ _ => (.control, 1)
  | .requestDenied _ _ => (.control, 2)
  | .restarted _ _ => (.control, 3)

def Event.category (e : Event) : Category := (eventCode e).1

end Sys2Proof.Machine
end

