-- ==== Sys2Proof/Machine/Operands.lean ====
section
/-! DEFINITION. The wire formats of chapter 10 and the reading of frames: bytes to fields, checks, flow keys, the bodies
of every message in both directions, and the requests of the catalogue. -/

namespace Sys2Proof.Machine

/-! ## Bytes (R182) -/

/-- A field of `w` bytes, most significant byte first. -/
def be : Nat → Nat → List Byte
  | 0, _ => []
  | w + 1, n => BitVec.ofNat 8 (n / 256 ^ w) :: be w n

/-- The number a field's bytes spell. -/
def unbe (bs : List Byte) : Nat := bs.foldl (fun a b => a * 256 + b.toNat) 0

/-- A signed field of `w` bytes, two's complement. -/
def beInt (w : Nat) (z : Int) : List Byte := be w (z % ((256 ^ w : Nat) : Int)).toNat

/-- The signed number a field's bytes spell. -/
def unbeInt (bs : List Byte) : Int :=
  let n := unbe bs
  if 2 * n < 256 ^ bs.length then (n : Int) else (n : Int) - ((256 ^ bs.length : Nat) : Int)

/-- The `w` bytes at an offset. -/
def slice (bs : List Byte) (off w : Nat) : List Byte := (bs.drop off).take w

/-- The number at an offset. -/
def field (bs : List Byte) (off w : Nat) : Nat := unbe (slice bs off w)

def timeAt (bs : List Byte) (off : Nat) : Time := BitVec.ofNat 48 (field bs off 6)

def addrAt (bs : List Byte) (off : Nat) : Addr := BitVec.ofNat 48 (field bs off 6)

/-- Bit `i` of the byte at an offset. -/
def bitAt (bs : List Byte) (off i : Nat) : Bool := (field bs off 1).testBit i

def beTime (t : Time) : List Byte := be 6 t.toNat

def flagByte (b : Bool) : List Byte := be 1 b.toNat

/-! ## Checks of a block and an image (R151) -/

/-- One bit of the reflected CRC-32 with generator polynomial 04C11DB7. -/
def crc32Bit (c : Nat) : Nat := if c % 2 = 1 then (c / 2) ^^^ 0xEDB88320 else c / 2

def crc32Byte (c : Nat) (b : Byte) : Nat :=
  crc32Bit (crc32Bit (crc32Bit (crc32Bit (crc32Bit (crc32Bit (crc32Bit (crc32Bit (c ^^^ b.toNat))))))))

/-- The image CRC-32 (R151): initial value all ones, reflected input and output, final complement. -/
def crc32 (bs : List Byte) : Nat := (bs.foldl crc32Byte 0xFFFFFFFF) ^^^ 0xFFFFFFFF

/-- One bit of the CRC-16 with generator polynomial 1021. -/
def crc16Bit (c : Nat) : Nat := if 0x8000 ≤ c then (c * 2 % 0x10000) ^^^ 0x1021 else c * 2

def crc16Byte (c : Nat) (b : Byte) : Nat :=
  crc16Bit (crc16Bit (crc16Bit (crc16Bit (crc16Bit (crc16Bit (crc16Bit (crc16Bit (c ^^^ (b.toNat * 256)))))))))

/-- The block check CRC-16 (R151): initial value all ones, no reflection, no final complement. -/
def crc16 (bs : List Byte) : Nat := bs.foldl crc16Byte 0xFFFF

/-! ## Link frames and flow keys -/

/-- The length of the link header: two addresses and the link type (PRESUMED, log 7). -/
abbrev linkLen : Nat := 14

/-- The length of the mesh header (10.2). -/
abbrev meshLen : Nat := 18

/-- The mesh link type (10.2). -/
abbrev meshType : Nat := 0x8AF3

def linkDst (f : List Byte) : Addr := addrAt f 0

def linkSrc (f : List Byte) : Addr := addrAt f 6

def linkType (f : List Byte) : Nat := field f 12 2

/-- What the Classifier reads of a frame's network and transport headers (R49). -/
structure NetInfo where
  proto   : Proto := .other
  srcPort : Nat := 0
  dstPort : Nat := 0
  srcAddr : Nat := 0
  dstAddr : Nat := 0
  deriving DecidableEq, Repr

/-- The bytes a transport header needs: TCP 20, UDP 8 (PRESUMED, log 7). -/
def transportLen : Proto → Nat
  | .tcp => 20
  | .udp => 8
  | .other => 0

/-- The transport protocol an IP header names: TCP 6, UDP 17 (PRESUMED, log 7). -/
def transportOf : Nat → Proto
  | 6 => .tcp
  | 17 => .udp
  | _ => .other

/-- Adds the ports of a transport header at an offset, if the frame holds it whole (R49). -/
def withPorts (f : List Byte) (off : Nat) (p : Proto) (n : NetInfo) : NetInfo :=
  if p ≠ .other ∧ off + transportLen p ≤ f.length then
    { n with proto := p, srcPort := field f off 2, dstPort := field f (off + 2) 2 }
  else n

/-- The exclusive OR of the four 32-bit words of an IPv6 address (R49). -/
def foldV6 (f : List Byte) (off : Nat) : Nat :=
  field f off 4 ^^^ field f (off + 4) 4 ^^^ field f (off + 8) 4 ^^^ field f (off + 12) 4

/-- The network and transport fields of a link frame (R49). A frame typed IPv4 or IPv6 that ends before its fixed IP
header does is taken as one without it (DESIGN CHOICE, log 37). -/
def netInfo (f : List Byte) : NetInfo :=
  if linkType f = 0x0800 ∧ linkLen + 20 ≤ f.length then
    let base : NetInfo := { srcAddr := field f 26 4, dstAddr := field f 30 4 }
    if field f 20 2 % 8192 ≠ 0 then base
    else withPorts f (linkLen + 4 * (field f 14 1 % 16)) (transportOf (field f 23 1)) base
  else if linkType f = 0x86DD ∧ linkLen + 40 ≤ f.length then
    withPorts f (linkLen + 40) (transportOf (field f 20 1)) { srcAddr := foldV6 f 22, dstAddr := foldV6 f 38 }
  else {}

/-- The key of a frame from, or to, a station (R49). -/
def keyOf (fromStation : Bool) (station : Addr) (f : List Byte) : FlowKey :=
  let n := netInfo f
  if fromStation then { station, proto := n.proto, rPort := n.dstPort, lPort := n.srcPort, rAddr := n.dstAddr }
  else { station, proto := n.proto, rPort := n.srcPort, lPort := n.dstPort, rAddr := n.srcAddr }

/-- The flow key of a frame for a station address (R49). A frame is from the station when its source link address is
the station's. -/
def flowKey (station : Addr) (f : List Byte) : FlowKey := keyOf (linkSrc f = station) station f

/-! ## The mesh header (R32, 10.2) -/

/-- The mesh header as read, before any check. -/
structure RawHdr where
  version : Nat
  kind    : Nat
  fwd     : Bool
  cls     : Nat
  src     : Nat
  dst     : Nat
  station : Addr
  plen    : Nat
  deriving DecidableEq, Repr

def readHdr (m : List Byte) : RawHdr where
  version := field m 0 1
  kind := field m 1 1
  fwd := bitAt m 2 0
  cls := field m 3 1
  src := field m 4 1
  dst := field m 5 1
  station := addrAt m 6
  plen := field m 12 2

/-- The checks that drop a frame as MALFORMED_HEADER (R32); `m` starts at the mesh header. -/
def hdrMalformed (h : RawHdr) (m : List Byte) : Bool :=
  h.version ≠ 1 || h.src = 0 || 8 < h.src || 8 < h.dst || h.plen ≠ m.length - meshLen || (h.kind = 1 && 3 < h.cls)

/-- The bytes of a mesh header (10.2). -/
def hdrBytes (kind : Kind) (h : MeshHdr) (plen : Nat) : List Byte :=
  be 1 1 ++ be 1 (kindCode kind) ++ flagByte h.fwd ++ be 1 h.cls ++ be 1 h.src ++ be 1 h.dst ++ be 6 h.station.toNat ++
    be 2 plen ++ be 4 0

/-! ## Bodies -/

/-- The bytes of a beacon body (10.3). -/
def beaconBytes (b : Beacon) : List Byte :=
  be 1 b.root ++ be 1 b.prio ++ be 1 b.exp ++ be 1 (b.disc.toNat + 2 * b.quiet.toNat + 4 * b.cal.isSome.toNat) ++
    beTime b.mtb ++
    match b.cal with
    | none => []
    | some c => beTime c.anchor ++ be 4 c.weekSec ++ be 1 c.gen

/-- A beacon body read (10.3, R182): none when it is malformed. -/
def readBeacon (p : List Byte) : Option Beacon :=
  let hasCal := bitAt p 3 2
  if p.length < (if hasCal then 21 else 10) ∨ field p 0 1 = 0 ∨ 8 < field p 0 1 ∨ 7 < field p 1 1 then none
  else some {
    root := field p 0 1
    prio := field p 1 1
    exp := field p 2 1
    disc := bitAt p 3 0
    quiet := bitAt p 3 1
    mtb := timeAt p 4
    cal := if hasCal then some { anchor := timeAt p 10, weekSec := field p 16 4, gen := field p 20 1 } else none }

def hintBytes (h : Hint) : List Byte := be 1 (protoCode h.proto) ++ be 2 h.rPort ++ be 2 h.lPort ++ be 4 h.rAddr

/-- The bytes of a STATION body (10.4). -/
def stationBytes : StationMsg → List Byte
  | .claim c => be 1 1 ++ be 6 c.station.toNat ++ be 1 c.claimant ++ be 1 c.prev ++ beTime c.cutover
  | .release r =>
    be 1 2 ++ be 6 r.station.toNat ++ be 1 r.sender ++ be 2 r.forwarded ++ be 4 r.allow.remaining ++ be 1 r.allow.day ++
      flagByte r.allow.known ++ be 1 r.profile ++ be 1 r.hints.length ++ (r.hints.map hintBytes).flatten
  | .hearing h => be 1 3 ++ be 6 h.station.toNat ++ be 1 h.reporter ++ beInt 2 h.level

/-- `n` hints read from the front of a list of bytes: none when a protocol is not listed (R182). -/
def readHints : Nat → List Byte → Option (List Hint)
  | 0, _ => some []
  | n + 1, p =>
    match protoOf (field p 0 1), readHints n (p.drop 9) with
    | some pr, some hs => some ({ proto := pr, rPort := field p 1 2, lPort := field p 3 2, rAddr := field p 5 4 } :: hs)
    | _, _ => none

/-- A CLAIM body read (10.4). -/
def readClaim (p : List Byte) : Option StationMsg :=
  if p.length < 15 ∨ field p 7 1 = 0 ∨ 8 < field p 7 1 ∨ 8 < field p 8 1 then none
  else some (.claim { station := addrAt p 1, claimant := field p 7 1, prev := field p 8 1, cutover := timeAt p 9 })

/-- A RELEASE body read (10.4). -/
def readRelease (p : List Byte) : Option StationMsg :=
  let n := field p 17 1
  if p.length < 18 + 9 * n ∨ 8 < n ∨ field p 7 1 = 0 ∨ 8 < field p 7 1 ∨ 86400 < field p 10 4 ∨ 6 < field p 14 1 ∨
      31 < field p 16 1 then none
  else (readHints n (p.drop 18)).map fun hs => .release {
    station := addrAt p 1
    sender := field p 7 1
    forwarded := field p 8 2
    allow := { remaining := field p 10 4, day := field p 14 1, known := bitAt p 15 0 }
    profile := field p 16 1
    hints := hs }

/-- A HEARING body read (10.4); its level is clamped by R97, not here. -/
def readHearing (p : List Byte) : Option StationMsg :=
  if p.length < 10 ∨ field p 7 1 = 0 ∨ 8 < field p 7 1 then none
  else some (.hearing { station := addrAt p 1, reporter := field p 7 1, level := unbeInt (slice p 8 2) })

/-- A STATION body read: none when it is malformed (R36, R182). -/
def readStation (p : List Byte) : Option StationMsg :=
  match field p 0 1 with
  | 1 => readClaim p
  | 2 => readRelease p
  | 3 => readHearing p
  | _ => none

/-- The message type byte of an IMAGE body (10.5). -/
def imageType : ImageBody → Nat
  | .announce _ _ _ _ => 1
  | .announceReply _ => 2
  | .block _ _ _ => 3
  | .mapQuery _ => 4
  | .mapReport _ => 5
  | .verifyQuery => 6
  | .verifyReport _ => 7
  | .propose _ _ => 8
  | .proposeReply _ _ => 9
  | .cancel => 10
  | .cancelReply _ => 11
  | .quietRequest _ => 12
  | .quietReply _ => 13

def rangeBytes (r : Nat × Nat) : List Byte := be 2 r.1 ++ be 2 r.2

/-- A MAP REPORT from its status onward (10.5). -/
def mapBytes (m : MapContent) : List Byte :=
  be 1 (mapCode m.status) ++ flagByte m.more ++ be 1 m.ranges.length ++ (m.ranges.map rangeBytes).flatten

/-- The fields of an IMAGE body after the prefix (10.5). -/
def imageFields : ImageBody → List Byte
  | .announce v n crc r => be 4 v ++ be 2 n ++ be 4 crc ++ flagByte r
  | .announceReply r => be 1 (announceCode r)
  | .block i crc data => be 2 i ++ be 2 crc ++ data
  | .mapQuery s => be 2 s
  | .mapReport m => mapBytes m
  | .verifyQuery => []
  | .verifyReport ok => be 1 (if ok then 1 else 2)
  | .propose c f => beTime c ++ flagByte f
  | .proposeReply r reason => be 1 (proposeCode r) ++ be 1 (reasonCode reason)
  | .cancel => []
  | .cancelReply ok => be 1 (if ok then 1 else 2)
  | .quietRequest t => beTime t
  | .quietReply st => be 1 (statusCode st)

/-- The bytes of an IMAGE body (10.5). -/
def imageBytes (m : ImageMsg) : List Byte := be 1 (imageType m.body) ++ be 2 m.query ++ be 2 m.id ++ imageFields m.body

/-- `n` ranges read from the front of a list of bytes. -/
def readRanges : Nat → List Byte → List (Nat × Nat)
  | 0, _ => []
  | n + 1, p => (field p 0 2, field p 2 2) :: readRanges n (p.drop 4)

/-- A two-valued enumeration of codes 1 and 2. -/
def oneTwo : Nat → Option Bool
  | 1 => some true
  | 2 => some false
  | _ => none

/-- The fields after the prefix of an IMAGE body read, by its type: none when they are malformed (R182). The starting index
of a MAP QUERY and the first index and count of a range take every value of 2 bytes (DESIGN CHOICE, log 59). -/
def readImageFields (ty : Nat) (q : List Byte) : Option ImageBody :=
  match ty with
  | 1 => if q.length < 11 then none
         else some (.announce (field q 0 4) (field q 4 2) (field q 6 4) (bitAt q 10 0))
  | 2 => if q.length < 1 then none else (announceOf (field q 0 1)).map .announceReply
  | 3 => if q.length < 1028 then none else some (.block (field q 0 2) (field q 2 2) (slice q 4 1024))
  | 4 => if q.length < 2 then none else some (.mapQuery (field q 0 2))
  | 5 => if q.length < 3 + 4 * field q 2 1 ∨ 16 < field q 2 1 ∨ q.length < 3 then none
         else (mapOf (field q 0 1)).map fun st =>
           .mapReport { status := st, more := bitAt q 1 0, ranges := readRanges (field q 2 1) (q.drop 3) }
  | 6 => some .verifyQuery
  | 7 => if q.length < 1 then none else (oneTwo (field q 0 1)).map .verifyReport
  | 8 => if q.length < 7 then none else some (.propose (timeAt q 0) (bitAt q 6 0))
  | 9 => if q.length < 2 then none
         else match proposeOf (field q 0 1), reasonOf (field q 1 1) with
           | some r, some why => some (.proposeReply r why)
           | _, _ => none
  | 10 => some .cancel
  | 11 => if q.length < 1 then none else (oneTwo (field q 0 1)).map .cancelReply
  | 12 => if q.length < 6 then none else some (.quietRequest (timeAt q 0))
  | 13 => if q.length < 1 then none else (statusOf (field q 0 1)).map .quietReply
  | _ => none

/-- An IMAGE body read: none when it is malformed (R182). -/
def readImage (p : List Byte) : Option ImageMsg :=
  if p.length < 5 then none
  else (readImageFields (field p 0 1) (p.drop 5)).map fun b => { query := field p 1 2, id := field p 3 2, body := b }

/-! ## Frames the part holds -/

def Content.kind : Content → Kind
  | .data _ => .data
  | .beacon _ => .beacon
  | .control _ => .control
  | .notice _ => .notice
  | .station _ => .station
  | .image _ => .image

/-- The payload bytes of a frame's content (10.2 to 10.6). -/
def Content.payload : Content → List Byte
  | .data f => f
  | .beacon b => beaconBytes b
  | .control p => p
  | .notice p => p
  | .station m => stationBytes m
  | .image m => imageBytes m

def QFrame.kind (f : QFrame) : Kind := f.content.kind

/-- The frame's length as sent (R74): its payload, with the mesh header and the link header it leaves with. -/
def QFrame.sentLen (f : QFrame) : Nat :=
  f.content.payload.length + (if f.hdr.isSome then meshLen else 0) + (if f.link.isSome then linkLen else 0)

/-- The frame's destination node: its mesh header's, if it has one. -/
def QFrame.dstNode (f : QFrame) : Option Nat := f.hdr.map (·.dst)

/-- The bytes the port's MAC sends for a frame. -/
def QFrame.wire (f : QFrame) : List Byte :=
  (match f.link with
   | none => []
   | some a => be 6 a.toNat ++ be 6 Config.ownLinkAddress.toNat ++ be 2 meshType) ++
  (match f.hdr with
   | none => []
   | some h => hdrBytes f.kind h f.content.payload.length) ++
  f.content.payload

/-- Whether a frame is one of the distributor's block frames (R68). -/
def QFrame.isBlock (f : QFrame) : Bool :=
  match f.content with
  | .image { body := .block _ _ _, .. } => true
  | _ => false

/-! ## Event details (10.6) -/

/-- The 13 bytes of a flow key: station, protocol, ports, the low half of the remote address (10.6). -/
def keyBytes (k : FlowKey) : List Byte :=
  be 6 k.station.toNat ++ be 1 (protoCode k.proto) ++ be 2 k.rPort ++ be 2 k.lPort ++ be 2 (k.rAddr % 65536)

/-- The detail of an event: the fields its owning rule names, in the order named, each in its width (10.6). -/
def eventDetail : Event → List Byte
  | .lockLost st => be 1 (syncCode st)
  | .meshTimeStep st e => be 1 (syncCode st) ++ beInt 6 e
  | .rateClamped st => be 1 (syncCode st)
  | .holdoverEntered st => be 1 (syncCode st)
  | .rootEntered st => be 1 (syncCode st)
  | .rootYielded st => be 1 (syncCode st)
  | .rootChanged st => be 1 (syncCode st)
  | .steered a n s0 sb => be 6 a.toNat ++ be 1 n ++ beInt 2 s0 ++ beInt 2 sb
  | .noEntry a p => be 6 a.toNat ++ be 1 (portNum p)
  | .contextTableFull a r => be 6 a.toNat ++ be 1 (roleCode r)
  | .contextLost a n => be 6 a.toNat ++ be 1 n
  | .holdOverflow a n => be 6 a.toNat ++ be 2 n
  | .stateChanged a o n => be 6 a.toNat ++ be 1 (effCode o) ++ be 1 (effCode n)
  | .tablesCommitted m minute =>
    be 1 (schedMethodCode m) ++ match minute with
      | none => []
      | some x => be 2 x
  | .overrideChanged p k s => be 1 p ++ be 1 (overrideKindCode k) ++ be 1 (scopeCode s)
  | .overrideEnded p k => be 1 p ++ be 1 (overrideKindCode k)
  | .gameStarted k slot q => be 6 k.station.toNat ++ keyBytes k ++ be 2 slot ++ be 1 q
  | .gameEnded k slot => be 6 k.station.toNat ++ keyBytes k ++ be 2 slot
  | .tableFull k => be 6 k.station.toNat ++ keyBytes k
  | .hintRefused k => be 6 k.station.toNat ++ keyBytes k
  | .windowCommitted m mt => be 1 (windowMethodCode m) ++ beTime mt
  | .oversize p q len dst i => be 1 (portNum p) ++ be 1 (queueCode q) ++ be 2 len ++ be 1 dst ++ be 2 i
  | .backhaulTxFailed p k n => be 1 (portNum p) ++ be 1 (kindCode k) ++ be 1 n
  | .queueDrop p k n => be 1 (portNum p) ++ be 1 k ++ be 2 n
  | .mgmtDrop p k => be 1 (portNum p) ++ be 1 (kindCode k)
  | .bufferTxFailed p k n => be 1 (portNum p) ++ be 1 (kindCode k) ++ be 1 n
  | .poolExhausted p k n => be 1 (portNum p) ++ be 1 (kindCode k) ++ be 2 n
  | .slotFailed s c => be 1 s.toNat ++ be 1 (slotCauseCode c)
  | .verifyDone s ok => be 1 s.toNat ++ be 1 (if ok then 1 else 2)
  | .armed i c => be 2 i ++ beTime c
  | .disarmed i c => be 2 i ++ beTime c
  | .switched s i c => be 1 s.toNat ++ be 2 i ++ beTime c
  | .targetLost n p => be 1 n ++ be 1 (phaseCode p)
  | .quietRefused st => be 1 (match st with
      | none => 255
      | some x => statusCode x)
  | .proposalDeferred n r => be 1 n ++ be 1 (reasonCode r)
  | .cancelLost n c => be 1 n ++ beTime c
  | .distributionEnded c => be 1 (endCauseCode c)
  | .queueOverflow p tag => be 1 (portNum p) ++ be 2 tag
  | .requestDenied p code => be 1 (portNum p) ++ be 2 code
  | .restarted n mt => be 1 n ++ beTime mt

/-- A NOTICE payload (10.6): node, category, count, event code, detail. -/
def noticeBytes (node : Nat) (count : Nat) (e : Event) : List Byte :=
  be 1 node ++ be 1 (categoryCode e.category) ++ be 2 count ++ be 1 (eventCode e).2 ++
    be 1 (eventDetail e).length ++ eventDetail e

/-- A response payload (10.6). -/
def responseBytes (tag code node : Nat) (st : Status) (result : List Byte) : List Byte :=
  be 1 2 ++ be 2 tag ++ be 2 code ++ be 1 node ++ be 1 (statusCode st) ++ result

/-! ## Requests (10.7) -/

/-- What the code and, for the table requests, the table id or target of a request select. -/
inductive Decoded where
  | row (i : Instr)
  /-- A known code whose table id, or commit target, names nothing: answered MALFORMED (R179). -/
  | noTarget (h : ReqHead) (code : Nat)
  deriving DecidableEq, Repr

/-- The read requests (section 9.1) by code; every other code, known or not, is a manage request. -/
def isRead (code : Nat) : Bool := code = 1 || code = 2 || code = 4 || code = 32

/-- The presence-mask form (10.7): for each parameter of the given width, its bytes when its mask bit is set; the
flag says that the bytes ran out. -/
def takeSubset : List Nat → Nat → List Byte → Bool × List (Option (List Byte))
  | [], _, _ => (false, [])
  | w :: ws, m, p =>
    if m % 2 = 1 then
      let r := takeSubset ws (m / 2) (p.drop w)
      (r.1 || p.length < w, some (p.take w) :: r.2)
    else
      let r := takeSubset ws (m / 2) p
      (r.1, none :: r.2)

/-- A subset read at an offset, where its 2-byte presence mask stands. -/
def subsetAt (ws : List Nat) (p : List Byte) (off : Nat) : Bool × List (Option (List Byte)) :=
  let r := takeSubset ws (field p off 2) (p.drop (off + 2))
  (r.1 || p.length < off + 2, r.2)

def nthNum (l : List (Option (List Byte))) (i : Nat) : Option Nat := (l[i]?.join).map unbe

def nthInt (l : List (Option (List Byte))) (i : Nat) : Option Int := (l[i]?.join).map unbeInt

def nthFlag (l : List (Option (List Byte))) (i : Nat) : Option Bool := (l[i]?.join).map (bitAt · 0 0)

/-- A timeout with its retries, the last byte (log 8). -/
def nthPair (l : List (Option (List Byte))) (i : Nat) : Option (Nat × Nat) :=
  (l[i]?.join).map fun b => (unbe (b.take (b.length - 1)), unbe (b.drop (b.length - 1)))

/-- Consecutive numbers of `w` bytes. -/
def numsOf (w : Nat) : Nat → List Byte → List Nat
  | 0, _ => []
  | n + 1, p => field p 0 w :: numsOf w n (p.drop w)

/-- The four actions of a matrix, each an action code and a target (log 8). -/
def actionsOf : Nat → List Byte → List ActionFields
  | 0, _ => []
  | n + 1, p => { action := field p 0 1, target := field p 1 1 } :: actionsOf n (p.drop 2)

/-- A READ ENTRY by table id (10.7). -/
def decodeReadEntry (h : ReqHead) (table index : Nat) : Decoded :=
  match table with
  | 1 => .row (.readEntryClassRule h index)
  | 2 => .row (.readEntryFlow h index)
  | 3 => .row (.readEntryBackhaulWindow h false index)
  | 4 => .row (.readEntryBackhaulWindow h true index)
  | 5 => .row (.readEntryPeer h index)
  | 6 => .row (.readEntryStation h index)
  | 7 => .row (.readEntryContext h index)
  | 8 => .row (.readEntryMembership h false index)
  | 9 => .row (.readEntryMembership h true index)
  | 10 => .row (.readEntryProfile h false index)
  | 11 => .row (.readEntryProfile h true index)
  | 12 => .row (.readEntryScheduleWindow h false index)
  | 13 => .row (.readEntryScheduleWindow h true index)
  | 14 => .row (.readEntryQueueParameters h index)
  | _ => .noTarget h 4

/-- A CLEAR ENTRY by table id (10.7). -/
def decodeClearEntry (h : ReqHead) (table index : Nat) : Decoded :=
  match table with
  | 1 => .row (.clearEntryClassRule h index)
  | 2 => .row (.clearEntryFlow h index)
  | 3 => .row (.clearEntryBackhaulWindow h false index)
  | 4 => .row (.clearEntryBackhaulWindow h true index)
  | 5 => .row (.clearEntryPeer h index)
  | 6 => .row (.clearEntryStation h index)
  | 7 => .row (.clearEntryContext h index)
  | 8 => .row (.clearEntryMembership h false index)
  | 9 => .row (.clearEntryMembership h true index)
  | 10 => .row (.clearEntryProfile h false index)
  | 11 => .row (.clearEntryProfile h true index)
  | 12 => .row (.clearEntryScheduleWindow h false index)
  | 13 => .row (.clearEntryScheduleWindow h true index)
  | _ => .noTarget h 6

/-- A request marked short when its parameters hold fewer than `n` bytes (R175 check 4). -/
def needs (h : ReqHead) (p : List Byte) (n : Nat) : ReqHead := { h with short := decide (p.length < n) }

/-- The fields of a class rule write, after table id and index (R50). -/
def readRuleFields (f : List Byte) : ClassRuleFields where
  proto := field f 0 1
  rLo := field f 1 2
  rHi := field f 3 2
  lLo := field f 5 2
  lHi := field f 7 2
  sLo := field f 9 2
  sHi := field f 11 2
  profile := field f 13 1
  cls := field f 14 1
  essential := bitAt f 15 0
  pin := bitAt f 16 0

/-- The fields of a backhaul window write (R76). The owner's byte stands in every write, and is ignored in a BEACON or OPEN
window's (DESIGN CHOICE, log 39). -/
def readWindowFields (f : List Byte) : WindowFields where
  start := field f 0 2
  length := field f 2 2
  kind := field f 4 1
  owner := field f 5 1
  mask := field f 6 1
  k := field f 7 1
  c := field f 8 1

/-- The fields of a profile write (R128): any subset. -/
def readProfileFields (l : List (Option (List Byte))) : ProfileFields where
  default := nthNum l 0
  daily := (l[1]?.join).map (numsOf 2 7)
  fallback := nthNum l 2
  exhausted := nthNum l 3
  matrix := (l[4]?.join).map (actionsOf 4)

/-- The fields of a schedule window write (R129). -/
def readSchedFields (f : List Byte) : SchedWindowFields where
  profile := field f 0 1
  start := field f 1 2
  stop := field f 3 2
  kind := field f 5 1

/-- The widths of a profile's fields in their table's order (R128). -/
abbrev profileWidths : List Nat := [1, 14, 2, 1, 8]

/-- A WRITE ENTRY by table id (10.7); `p` are all its parameters. -/
def decodeWriteEntry (h : ReqHead) (p : List Byte) : Decoded :=
  let index := field p 1 2
  let f := p.drop 3
  match field p 0 1 with
  | 1 => .row (.writeEntryClassRule (needs h p 20) index (readRuleFields f))
  | 2 => .row (.writeEntryFlow (needs h p 3) index)
  | 3 => .row (.writeEntryBackhaulWindow (needs h p 12) false index (readWindowFields f))
  | 4 => .row (.writeEntryBackhaulWindow (needs h p 12) true index (readWindowFields f))
  | 5 => .row (.writeEntryPeer (needs h p 7) index (field f 0 2) (field f 2 2))
  | 6 => .row (.writeEntryStation (needs h p 3) index)
  | 7 => .row (.writeEntryContext (needs h p 3) index)
  | 8 => .row (.writeEntryMembership (needs h p 10) false index (addrAt f 0) (field f 6 1))
  | 9 => .row (.writeEntryMembership (needs h p 10) true index (addrAt f 0) (field f 6 1))
  | 10 => let r := subsetAt profileWidths p 3
          .row (.writeEntryProfile { h with short := r.1 } false index (readProfileFields r.2))
  | 11 => let r := subsetAt profileWidths p 3
          .row (.writeEntryProfile { h with short := r.1 } true index (readProfileFields r.2))
  | 12 => .row (.writeEntryScheduleWindow (needs h p 9) false index (readSchedFields f))
  | 13 => .row (.writeEntryScheduleWindow (needs h p 9) true index (readSchedFields f))
  | _ => .noTarget h 5

/-- A COMMIT by target (10.7). -/
def decodeCommit (h : ReqHead) (p : List Byte) : Decoded :=
  match field p 0 1 with
  | 1 => .row (.commitWindowTable (needs h p 2) (field p 1 1))
  | 2 => .row (.commitScheduleTables (needs h p 2) (field p 1 1))
  | _ => .noTarget (needs h p 2) 7

/-- A DISCARD by target (10.7). It needs the target's byte alone: a method that follows is not read (DESIGN CHOICE,
log 44). -/
def decodeDiscard (h : ReqHead) (p : List Byte) : Decoded :=
  match field p 0 1 with
  | 1 => .row (.discardWindowTable (needs h p 1))
  | 2 => .row (.discardScheduleTables (needs h p 1))
  | _ => .noTarget (needs h p 1) 8

/-- The system requests and the Time Base's (codes 1 to 21) by code, then the parameters `p`. -/
def decodeLow (h : ReqHead) (code : Nat) (p : List Byte) : Decoded :=
  match code with
  | 1 => .row (.readStatus (needs h p 1) (field p 0 1))
  | 2 => .row (.readCounters (needs h p 1) (field p 0 1))
  | 3 => .row (.clearCounters h)
  | 4 => decodeReadEntry (needs h p 3) (field p 0 1) (field p 1 2)
  | 5 => decodeWriteEntry (needs h p 3) p
  | 6 => decodeClearEntry (needs h p 3) (field p 0 1) (field p 1 2)
  | 7 => decodeCommit h p
  | 8 => decodeDiscard h p
  | 9 => .row (.setEventEnables (needs h p 2) (field p 0 2))
  | 10 => .row (.ackEvents (needs h p 2) (field p 0 2))
  | 11 => .row (.setAdmission (needs h p 2) (field p 0 1) (field p 1 1))
  | 12 => .row (.registerController (needs h p 8) (field p 0 1) (field p 1 1) (addrAt p 2))
  | 13 => .row (.restart h)
  | 16 => .row (.setRate (needs h p 5) (field p 0 3) (field p 3 2))
  | 17 => let r := subsetAt [1, 1, 1, 2, 1, 1] p 0
          .row (.setSyncParameters { h with short := r.1 }
            ⟨nthNum r.2 0, nthNum r.2 1, nthNum r.2 2, nthNum r.2 3, nthNum r.2 4, nthNum r.2 5⟩)
  | 18 => .row (.syncControl (needs h p 1) (bitAt p 0 0))
  | 19 => .row (.presetTime (needs h p 6) (unbeInt (slice p 0 6)))
  | 20 => .row (.setCalendar (needs h p 3) (field p 0 3))
  | 21 => .row (.requestQuiet (needs h p 6) (timeAt p 0))
  | _ => .row (.unknownRequestCode h code)

/-- The parameter requests of the other blocks (codes 24 to 36). -/
def decodeMid (h : ReqHead) (code : Nat) (p : List Byte) : Decoded :=
  match code with
  | 24 => .row (.setFramePathParameters (needs h p 1) (field p 0 1))
  | 25 => let r := subsetAt [2, 2, 2, 1, 1] p 0
          .row (.setClassifierParameters { h with short := r.1 }
            ⟨nthNum r.2 0, nthNum r.2 1, nthNum r.2 2, nthNum r.2 3, nthNum r.2 4⟩)
  | 26 => let r := subsetAt [2, 2, 3, 1] p 2
          .row (.setQueueParameters { h with short := r.1 } (field p 0 1) (field p 1 1)
            ⟨nthNum r.2 0, nthNum r.2 1, nthNum r.2 2, nthFlag r.2 3⟩)
  | 27 => .row (.setBackhaulParameters (needs h p 2) (field p 0 1) (field p 1 1))
  | 28 => let r := subsetAt [1, 1, 1, 1, 1, 1] p 0
          .row (.setSteeringParameters { h with short := r.1 }
            ⟨(nthNum r.2 0).map Int.ofNat, nthInt r.2 1, (nthNum r.2 2).map Int.ofNat, nthInt r.2 3, nthNum r.2 4,
              nthNum r.2 5⟩)
  | 29 => let r := subsetAt [1, 1, 3] p 0
          .row (.setHandoffParameters { h with short := r.1 } ⟨nthNum r.2 0, nthNum r.2 1, nthNum r.2 2⟩)
  | 30 => .row (.setScheduleParameters (needs h p 3) (field p 0 3))
  | 32 => .row (.readScheduleState (needs h p 6) (addrAt p 0))
  | 33 => .row (.setOverride (needs h p 3) (field p 0 1) (field p 1 1) (field p 2 1))
  | 34 => .row (.clearOverride (needs h p 2) (field p 0 1) (field p 1 1))
  | 35 => .row (.toggleOverride (needs h p 3) (field p 0 1) (field p 1 1) (field p 2 1))
  | 36 => .row (.grantBonus (needs h p 3) (field p 0 1) (field p 1 2))
  | _ => .row (.unknownRequestCode h code)

/-- The image requests (codes 40 to 47). The target list of a DISTRIBUTE START is the rest of its body (log 8). -/
def decodeHigh (h : ReqHead) (code : Nat) (p : List Byte) : Decoded :=
  match code with
  | 40 => .row (.imageOpen (needs h p 13) ⟨field p 0 2, field p 2 4, field p 6 2, field p 8 4⟩ (bitAt p 12 0))
  | 41 => .row (.imageBlock (needs h p 1028) (field p 0 2) (field p 2 2) (slice p 4 1024))
  | 42 => .row (.imageClose h)
  | 43 => .row (.imageAbort h)
  | 44 => .row (.imageCancel h)
  | 45 => let r := subsetAt [4, 4, 5, 4, 1, 1, 1, 1, 1] p 0
          .row (.setImageParameters { h with short := r.1 }
            ⟨nthPair r.2 0, nthPair r.2 1, nthPair r.2 2, nthPair r.2 3, nthNum r.2 4, nthNum r.2 5, nthNum r.2 6,
              nthFlag r.2 7, nthNum r.2 8⟩)
  | 46 => .row (.distributeStart (needs h p 3) (field p 0 2) (bitAt p 2 0) (numsOf 1 (p.length - 3) (p.drop 3)))
  | 47 => .row (.distributeAbort h)
  | _ => .row (.unknownRequestCode h code)

/-- What a waiting request selects (10.6, 10.7): its head, its code, then its parameters. -/
def decodeRequest (r : CtlReq) : Decoded :=
  let h : ReqHead := { port := r.port, denied := r.denied, tag := field r.payload 1 2, dest := r.dest, short := false }
  let code := field r.payload 3 2
  let p := r.payload.drop 5
  if code < 24 then decodeLow h code p else if code < 40 then decodeMid h code p else decodeHigh h code p

end Sys2Proof.Machine
end

