-- ==== Sys2Proof/Machine/Ops.lean ====
section
/-! DEFINITION. The operations the units share: mesh time and cycle, look-ups, cells of the pool, the placing of frames in queues,
events and notices, and the answering of requests. All but the last act on `Io` alone. -/

namespace Sys2Proof.Machine

/-! ## Mesh time (R3, R6) -/

/-- Mesh time (R3). -/
def TimeBase.mt (t : TimeBase) : Time := t.lt + t.offset

/-- The cycle length in MU (section 1.3). -/
def TimeBase.cycle (t : TimeBase) : Nat := 2 ^ t.params.exponent

/-- The cycle count of a mesh time (R6). -/
def TimeBase.countOf (t : TimeBase) (x : Time) : Nat := x.toNat / t.cycle % 64

def TimeBase.count (t : TimeBase) : Nat := t.countOf t.mt

/-- The cycle position (R6). -/
def TimeBase.pos (t : TimeBase) : Nat := t.mt.toNat % t.cycle

/-- The largest multiple of 2^s not greater than MT (R6). -/
def TimeBase.startMt (t : TimeBase) : Time := BitVec.ofNat 48 (t.mt.toNat / t.cycle * t.cycle)

/-! ## Updates of one unit -/

def State.onIo (f : Io → Io) (s : State) : State := { s with io := f s.io }

def State.onTb (f : TimeBase → TimeBase) (s : State) : State := { s with tb := f s.tb }

def State.onCl (f : Classifier → Classifier) (s : State) : State := { s with cl := f s.cl }

def State.onSu (f : StationUnit → StationUnit) (s : State) : State := { s with su := f s.su }

def State.onHu (f : HandoffUnit → HandoffUnit) (s : State) : State := { s with hu := f s.hu }

def State.onSe (f : ScheduleEngine → ScheduleEngine) (s : State) : State := { s with se := f s.se }

def State.onIe (f : ImageEngine → ImageEngine) (s : State) : State := { s with ie := f s.ie }

def Io.onFp (f : FramePath → FramePath) (io : Io) : Io := { io with fp := f io.fp }

def Io.onEs (f : Egress → Egress) (io : Io) : Io := { io with es := f io.es }

def Io.onCu (f : ControlUnit → ControlUnit) (io : Io) : Io := { io with cu := f io.cu }

/-- This node's id. -/
def Io.node (io : Io) : Nat := io.fp.nodeId

def State.node (s : State) : Nat := s.io.node

def State.mt (s : State) : Time := s.tb.mt

/-- One port's Egress state. -/
def Io.port (p : Port) (io : Io) : PortEgress := io.es.ports.get p

def Io.onPort (p : Port) (f : PortEgress → PortEgress) (io : Io) : Io :=
  io.onEs fun e => { e with ports := e.ports.set p (f (e.ports.get p)) }

/-- Counts in the Frame Path's counters. -/
def countFp (f : FpCounters → FpCounters) (io : Io) : Io := io.onFp fun x => { x with counters := f x.counters }

/-- Counts in one port's Egress counters. -/
def countEs (p : Port) (f : EsCounters → EsCounters) (io : Io) : Io :=
  io.onPort p fun x => { x with counters := f x.counters }

/-- Counts in the Control Unit's counters. -/
def countCu (f : CuCounters → CuCounters) (io : Io) : Io := io.onCu fun x => { x with counters := f x.counters }

/-- The next free value has been used. -/
def Io.bumpFree (io : Io) : Io := { io with freeCount := io.freeCount + 1 }

/-- A drop counted NO_ROUTE (section 2.8). -/
def countNoRoute : Io → Io := countFp fun c => { c with noRoute := satInc c.noRoute }

/-! ## Tables of slots -/

/-- The lowest-numbered empty slot. -/
def lowestEmpty {α : Type} (l : List (Option α)) : Option Nat := l.findIdx? (·.isNone)

/-- The entry of a station address; no two entries hold the same address (section 5.1). -/
def StationUnit.entry (u : StationUnit) (a : Addr) : Option Station :=
  u.table.findSome? fun o => o.filter fun e => e.addr = a

def State.entry (s : State) (a : Addr) : Option Station := s.su.entry a

/-- Changes the entry of a station address. -/
def StationUnit.modify (a : Addr) (f : Station → Station) (u : StationUnit) : StationUnit :=
  { u with table := u.table.map fun o => o.map fun e => if e.addr = a then f e else e }

def State.modifyEntry (a : Addr) (f : Station → Station) (s : State) : State := s.onSu (StationUnit.modify a f)

/-- SERVING or ARRIVING. -/
def StState.served : StState → Bool
  | .serving _ _ => true
  | .arriving _ _ => true
  | .detached _ => false
  | .away _ _ => false

def StState.isAway : StState → Bool
  | .away _ _ => true
  | _ => false

/-- Present or absent, then the value (log 8). -/
def optBytes {α : Type} (f : α → List Byte) : Option α → List Byte
  | none => flagByte false
  | some a => flagByte true ++ f a

/-- A list of up to 255 values: their number, then the values (log 8). -/
def listBytes {α : Type} (f : α → List Byte) (l : List α) : List Byte := be 1 l.length ++ (l.map f).flatten

/-! ## Cells (R29 to R31) -/

/-- The cells of a queue. -/
def queueCells (q : List QFrame) : Nat := (q.map (·.cells)).sum

/-- A granted allocation (R29, R31). -/
def takeCells (n : Nat) (io : Io) : Io :=
  io.onFp fun x => { x with freeCells := x.freeCells - n, lowestFree := min x.lowestFree (x.freeCells - n) }

/-- Cells returned to the free count (R30). -/
def freeCells (n : Nat) (io : Io) : Io := io.onFp fun x => { x with freeCells := x.freeCells + n }

/-- Whether a data allocation is granted (R29). -/
def dataFits (n : Nat) (io : Io) : Bool := n + Config.reserve ≤ io.fp.freeCells

/-- Whether a management allocation is granted (R29). -/
def mgmtFits (n : Nat) (io : Io) : Bool := n ≤ io.fp.freeCells

/-! ## Events (R177)

A lost notice raises events of the BUFFER category, whose own notice may be lost in turn. The operations below take what
a drop does as an argument, so that the three levels of that chain are one text. -/

/-- The record of an event's category after the event (R177). -/
def EventRec.note (e : Event) (r : EventRec) : EventRec :=
  if r.pending then { r with count := satInc16 r.count }
  else { r with pending := true, first := some e, count := 1 }

/-- An event enters its category's record (R177). -/
def recordEvent (e : Event) (io : Io) : Io :=
  io.onCu fun c => { c with events := c.events.set e.category ((c.events.get e.category).note e) }

/-- A refused allocation: counted POOL_FULL at the port, POOL_EXHAUSTED raised (R31). -/
def refuseCells (onDrop : Event → Io → Io) (p : Port) (k : Kind) (n : Nat) (io : Io) : Io :=
  onDrop (.poolExhausted p k n) (countFp (fun c => { c with poolFull := c.poolFull.inc p }) io)

/-- A management allocation (R29): whether it is granted, and the state after. -/
def allocMgmtWith (onDrop : Event → Io → Io) (p : Port) (k : Kind) (n : Nat) (io : Io) : Bool × Io :=
  if mgmtFits n io then (true, takeCells n io) else (false, refuseCells onDrop p k n io)

/-- A frame placed in a management queue (R70): whether it is taken, and the state after. A refused frame's cells are
freed at the drop (R30), and then MGMT_DROP is raised. -/
def placeMgmtWith (onDrop : Event → Io → Io) (p : Port) (f : QFrame) (io : Io) : Bool × Io :=
  if (io.port p).mgmt.length < Config.mgmtDepth then
    (true, io.onPort p fun e => { e with mgmt := e.mgmt ++ [f], choiceDue := true })
  else
    (false, onDrop (.mgmtDrop p f.kind) (countEs p (fun c => { c with mgmtFull := satInc c.mgmtFull })
      (freeCells f.cells io)))

/-- A built frame given its cells and placed in a management queue. -/
def sendMgmtWith (onDrop : Event → Io → Io) (p : Port) (f : QFrame) (io : Io) : Bool × Io :=
  let r := allocMgmtWith onDrop p f.kind f.cells io
  if r.1 then placeMgmtWith onDrop p f r.2 else r

/-- The port and the frame of a response or notice this node builds, by the registration (R40). -/
def homeward (io : Io) (reg : Registration) (c : Content) : Port × QFrame :=
  let f : QFrame :=
    { hdr := some { src := io.node, dst := reg.node }, content := c, cells := cellsFor (meshLen + c.payload.length) }
  if reg.node = io.node then (reg.port, { f with link := some reg.addr }) else (.fp3, f)

/-- A category sends its NOTICE (R177), if it holds a first detail and a controller is registered. -/
def sendNoticeWith (onDrop : Event → Io → Io) (c : Category) (io : Io) : Io :=
  match (io.cu.events.get c).first, io.cu.reg with
  | some e, some reg =>
    let hf := homeward io reg (.notice (noticeBytes io.node (io.cu.events.get c).count e))
    let r := sendMgmtWith onDrop hf.1 hf.2 io
    if r.1 then countCu (fun k => { k with noticesSent := satInc k.noticesSent }) r.2
    else countCu (fun k => { k with noticesLost := satInc k.noticesLost }) r.2
  | _, _ => io

/-- An event enters its record and, if that made its enabled category pending, sends the notice (R177). -/
def raiseWith (onDrop : Event → Io → Io) (e : Event) (io : Io) : Io :=
  if (io.cu.events.get e.category).pending then recordEvent e io
  else if (io.cu.events.get e.category).enable then sendNoticeWith onDrop e.category (recordEvent e io)
  else recordEvent e io

/-- A BUFFER event raised by the loss of a notice. Its own notice lost adds to the count of its record, which is
pending by then. -/
def raiseBuffer (e : Event) (io : Io) : Io := raiseWith recordEvent e io

/-- What the loss of a category's notice does: a CONTROL notice raises no further event (R177). -/
def noticeDrop (c : Category) : Event → Io → Io :=
  match c with
  | .control => fun _ io => io
  | _ => raiseBuffer

/-- A block raises an event (R177). -/
def raise (e : Event) (io : Io) : Io := raiseWith (noticeDrop e.category) e io

/-- A category whose pending flag was already set sends its notice (R176, R178). -/
def sendNotice (c : Category) (io : Io) : Io := sendNoticeWith (noticeDrop c) c io

/-! ## Placing frames -/

def allocMgmt (p : Port) (k : Kind) (n : Nat) (io : Io) : Bool × Io := allocMgmtWith raise p k n io

def placeMgmt (p : Port) (f : QFrame) (io : Io) : Bool × Io := placeMgmtWith raise p f io

def sendMgmt (p : Port) (f : QFrame) (io : Io) : Bool × Io := sendMgmtWith raise p f io

/-- A data allocation (R29). -/
def allocData (p : Port) (n : Nat) (io : Io) : Bool × Io :=
  if dataFits n io then (true, takeCells n io) else (false, refuseCells raise p .data n io)

/-- A frame placed in a class queue (R69), under the limit test or, for a held frame moved on, without it. A refused
frame's cells are freed at the drop (R30), and then QUEUE_DROP is raised. -/
def placeClass (limited : Bool) (p : Port) (f : QFrame) (io : Io) : Bool × Io :=
  if limited && ((io.port p).limit.get f.cls < queueCells ((io.port p).queue.get f.cls) + f.cells) then
    (false, raise (.queueDrop p f.cls f.cells)
      (countEs p (fun c => { c with queueFull := satInc c.queueFull }) (freeCells f.cells io)))
  else
    (true, io.onPort p fun e =>
      { e with queue := e.queue.set f.cls (e.queue.get f.cls ++ [f]), choiceDue := true })

/-- A management frame with a mesh header for a node, with the cells its header and body need. -/
def meshFrame (src dst : Nat) (c : Content) : QFrame :=
  { hdr := some { src, dst }, content := c, cells := cellsFor (meshLen + c.payload.length) }

/-- A STATION message built and placed for FP3; whether it was placed. -/
def sendStation (dst : Nat) (m : StationMsg) (io : Io) : Bool × Io :=
  sendMgmt .fp3 (meshFrame io.node dst (.station m)) io

/-- An IMAGE message built and placed for FP3; whether it was placed. -/
def sendImage (dst : Nat) (m : ImageMsg) (io : Io) : Bool × Io :=
  sendMgmt .fp3 (meshFrame io.node dst (.image m)) io

/-! ## Frames taken at arrival -/

/-- A frame of a management kind taken at a port (R28 check 4, R29) whose cells are freed at the hand-over (R30): then
the block that takes its content acts. -/
def takeManaged (p : Port) (k : Kind) (len : Nat) (handle : State → State) (s : State) : State :=
  let r := allocMgmt p k (cellsFor len) s.io
  if r.1 then
    handle (s.onIo fun _ =>
      freeCells (cellsFor len) (countFp (fun c => { c with framesIn := c.framesIn.inc p }) r.2))
  else s.onIo fun _ => r.2

/-! ## Answers to requests (R175, R183) -/

/-- The bytes a result may take: a payload of 1,518 bytes less the response header (R183). -/
abbrev resultMax : Nat := 1511

/-- As many whole records as fit in a number of bytes. -/
def takeRecords : Nat → List (List Byte) → List (List Byte)
  | _, [] => []
  | room, r :: rs => if r.length ≤ room then r :: takeRecords (room - r.length) rs else []

/-- A result as sent: whole, or cut after the last whole record that fits, behind the number of records (R183). -/
def cutResult (recs : List (List Byte)) : List Byte :=
  if recs.flatten.length ≤ resultMax then recs.flatten
  else be 2 (takeRecords (resultMax - 2) recs).length ++ (takeRecords (resultMax - 2) recs).flatten

/-- A response that could not be placed or routed (R175). -/
def loseResponse : Io → Io := countCu fun c => { c with responsesLost := satInc c.responsesLost }

/-- The response of a request is built and sent (R175, R40). Without a registration its cells are taken, where the pool
has them, and freed at the drop. -/
def respond (tag code : Nat) (st : Status) (recs : List (List Byte)) (io : Io) : Io :=
  let io := countCu (fun c => { c with requestsExecuted := satInc c.requestsExecuted }) io
  let c := Content.control (responseBytes tag code io.node st (cutResult recs))
  match io.cu.reg with
  | none =>
    let n := cellsFor (meshLen + c.payload.length)
    loseResponse (countNoRoute (if mgmtFits n io then freeCells n (takeCells n io) else io))
  | some reg =>
    let hf := homeward io reg c
    let r := sendMgmt hf.1 hf.2 io
    if r.1 then r.2 else loseResponse r.2

/-- What a request's owning rule gives: the state after, the status, the records of the result. -/
structure Answer where
  state   : State
  status  : Status
  records : List (List Byte) := []

/-- A request answered MALFORMED, or another status, with nothing changed. -/
def refuse (st : Status) (s : State) : Answer := { state := s, status := st }

def ok (s : State) : Answer := { state := s, status := .ok }

/-- The execution of a request (R175): the checks in their order, then the owning rule, then the response.
REQUEST_DENIED is raised, and its notice placed, before the DENIED response (DESIGN CHOICE, log 44). -/
def request (h : ReqHead) (code : Nat) (rule : State → Answer) (s : State) : State :=
  if h.denied then
    s.onIo fun io => respond h.tag code .denied []
      (raise (.requestDenied h.port code) (countCu (fun c => { c with requestsDenied := satInc c.requestsDenied }) io))
  else if !isRead code && h.dest = 0 then s.onIo (respond h.tag code .malformed [])
  else if h.short then s.onIo (respond h.tag code .malformed [])
  else
    let a := rule s
    a.state.onIo (respond h.tag code a.status a.records)

end Sys2Proof.Machine
end

