-- ==== Sys2Proof/Machine/Schedule.lean ====
section
/-! DEFINITION. What the Schedule Engine computes from its tables (chapter 7): profiles, the minute of the week, base
states, the judging of a class, allowances, and the checks of its tables. -/

namespace Sys2Proof.Machine

/-! ## Profiles and minutes -/

/-- Profile 0, which is not stored (R128). -/
def profile0 : Profile := { fallback := 1440 }

/-- The profile of an id in a copy of the tables. -/
def SchedTables.profile (t : SchedTables) (id : Nat) : Profile :=
  if id = 0 then profile0 else (t.profiles[id - 1]?).getD {}

/-- The profile of an address: that of the in-use entry that holds it, or 0 (R127). -/
def SchedTables.member (t : SchedTables) (a : Addr) : Nat :=
  match t.members.find? fun m => m.inUse && m.addr = a with
  | some m => m.profile
  | none => 0

/-- The overrides of a profile; profile 0 has none. -/
def ScheduleEngine.overridesOf (e : ScheduleEngine) (id : Nat) : Overrides :=
  if id = 0 then {} else (e.overrides[id - 1]?).getD {}

/-- The minute of the week of a time under a valid calendar record (R24). -/
def Calendar.minuteOf (c : Calendar) (t : Time) : Nat :=
  let elapsed := if (t - c.anchor).toInt < 0 then 0 else (t - c.anchor).toNat / 1000000
  (c.weekSec + elapsed) % 604800 / 60

/-- The minute computed for a schedule time (R134). -/
def Calendar.minute? (c : Calendar) (t : Time) : Option Nat := if c.valid then some (c.minuteOf t) else none

/-- The day of the week of a minute. -/
def dayOf (m : Nat) : Nat := m / 1440

/-! ## States -/

/-- The base state of a profile at a minute (R136). -/
def ScheduleEngine.base (e : ScheduleEngine) (id : Nat) (minute : Option Nat) : EffState :=
  if id = 0 then .allow
  else
    match minute with
    | none => (e.active.profile id).default
    | some m =>
      match e.active.windows.findSome? fun w =>
        if w.inUse && w.profile = id && w.start ≤ m && m < w.stop then
          match w.kind with
          | .base b => some b
          | .maintenance => none
        else none with
      | some b => b
      | none => (e.active.profile id).default

/-- Steps 1 and 2 of R137: the base state under the profile's overrides. -/
def ScheduleEngine.overridden (e : ScheduleEngine) (id : Nat) : EffState :=
  let b := e.base id e.minute
  let o := e.overridesOf id
  if o.pause.isSome then .block else if o.grant.isSome then .allow else b

/-- The effective state of a station (R137); none outside SERVING and ARRIVING. -/
def ScheduleEngine.effective (e : ScheduleEngine) (id : Nat) (st : StState) : Option EffState :=
  match st with
  | .serving _ a =>
    if e.overridden id = .metered then
      if e.minute.isNone then some .allow
      else if a.known && a.remaining = 0 then some (e.active.profile id).exhausted
      else some .metered
    else some (e.overridden id)
  | .arriving _ _ =>
    if e.overridden id = .metered then some (if e.minute.isNone then .allow else .metered)
    else some (e.overridden id)
  | .detached _ => none
  | .away _ _ => none

/-- The class and the suppressed flag the schedule gives (R138). -/
def judge (st : EffState) (p : Profile) (k : Nat) (essential : Bool) : Nat × Bool :=
  match st with
  | .allow => (k, false)
  | .metered => (k, false)
  | .limit =>
    match p.matrix.get k with
    | .pass => (k, false)
    | .demote t => (t, false)
    | .drop => (3, !essential)
  | .block => if essential then (if k = 0 then 1 else k, false) else (3, true)

/-! ## Allowances (R143) -/

/-- Seconds of a profile's daily allowance on a day. -/
def Profile.dailySeconds (p : Profile) (day : Nat) : Nat := (p.daily[day]?).getD 0 * 60

/-- Seconds of a profile's fallback allowance on a day (R143). -/
def Profile.fallbackSeconds (p : Profile) (day : Nat) : Nat := min ((p.daily[day]?).getD 0) p.fallback * 60

/-- The remaining seconds formed when there is a current minute (R143). -/
def formRemaining (p : Profile) (today : Nat) (source : Option Allowance) (charge : Nat) (newToMesh : Bool) : Nat :=
  match source with
  | some a => (if a.known && a.day = today then a.remaining else p.dailySeconds today) - charge
  | none => (if newToMesh then p.dailySeconds today else p.fallbackSeconds today) - charge

/-- An allowance formed (R143): from a source or none, a pending charge, and whether the previous server was 0. With no
current minute and no known source its day is a free value (log 9). -/
def formAllowance (profile : Nat) (source : Option Allowance) (charge : Nat) (newToMesh : Bool) (s : State) :
    Allowance × State :=
  let counted :=
    if source.isNone && !newToMesh then
      s.onSe fun e => { e with counters := { e.counters with fallbacks := satInc e.counters.fallbacks } }
    else s
  match s.se.minute with
  | some m =>
    ({ remaining := formRemaining (s.se.active.profile profile) (dayOf m) source charge newToMesh
       day := dayOf m
       known := true }, counted)
  | none =>
    match source with
    | some a =>
      if a.known then (a, s)
      else ({ remaining := 0, day := Config.freeNat s.io.freeCount % 7, known := false }, s.onIo Io.bumpFree)
    | none => ({ remaining := 0, day := Config.freeNat s.io.freeCount % 7, known := false }, s.onIo Io.bumpFree)

/-! ## The checks of a commit (R130) -/

/-- The first in-use membership entry whose address an earlier in-use entry holds. -/
def badMember : Nat → List Addr → List Member → Option Nat
  | _, _, [] => none
  | i, seen, m :: ms =>
    if m.inUse then
      if seen.contains m.addr then some i else badMember (i + 1) (m.addr :: seen) ms
    else badMember (i + 1) seen ms

/-- Whether a matrix passes the check of R130. -/
def matrixOk (m : PerClass Action) : Bool :=
  let bad (k : Nat) (a : Action) : Bool :=
    match a with
    | .pass => k = 0
    | .demote t => k = 3 || t ≤ k
    | .drop => false
  !(bad 0 m.c0 || bad 1 m.c1 || bad 2 m.c2 || bad 3 m.c3)

/-- The first profile whose matrix fails; ids run from `i`. -/
def badProfile : Nat → List Profile → Option Nat
  | _, [] => none
  | i, p :: ps => if matrixOk p.matrix then badProfile (i + 1) ps else some i

/-- Whether a schedule window fails beside the previous in-use one (R130). -/
def windowBad (prev : Option SchedWindow) (w : SchedWindow) : Bool :=
  (w.kind = .maintenance && w.profile ≠ 0) || (w.profile = 0 && w.kind ≠ .maintenance) ||
    match prev with
    | none => false
    | some v =>
      w.profile < v.profile || (w.profile = v.profile && w.start ≤ v.start) ||
        (w.profile = v.profile && w.start < v.stop)

/-- The first in-use schedule window that fails. -/
def badWindow : Nat → Option SchedWindow → List SchedWindow → Option Nat
  | _, _, [] => none
  | i, prev, w :: ws =>
    if w.inUse then
      if windowBad prev w then some i else badWindow (i + 1) (some w) ws
    else badWindow (i + 1) prev ws

/-- The table id and the index the checks of R130 name, if they fail; the ids are those of the staged tables. -/
def SchedTables.invalid (t : SchedTables) : Option (Nat × Nat) :=
  match badMember 0 [] t.members, badProfile 1 t.profiles, badWindow 0 none t.windows with
  | some i, _, _ => some (8, i)
  | none, some i, _ => some (10, i)
  | none, none, some i => some (12, i)
  | none, none, none => none

/-! ## Maintenance windows (R147) -/

/-- The answers of R147. -/
inductive Maintenance where
  | noWindows | inside | outside
  deriving DecidableEq, Repr

/-- Whether a mesh time lies in a maintenance window (R147). -/
def State.maintenance (s : State) (t : Time) : Maintenance :=
  let ws := s.se.active.windows.filter fun w => w.inUse && w.kind = .maintenance
  if ws.isEmpty || !s.tb.cal.valid then .noWindows
  else
    let m := s.tb.cal.minuteOf t
    if ws.any fun w => w.start ≤ m && m < w.stop then .inside else .outside

end Sys2Proof.Machine
end

