-- ==== Sys2Proof/Machine/Classifier.lean ====
section
/-! DEFINITION. The Classifier (chapter 3): class rules, the flow table, the class of a frame, game detection, aging,
hints, the notices of station entries, and the Classifier's requests. -/

namespace Sys2Proof.Machine

/-! ## Class rules (R50, R51) -/

/-- The result of a match (R51). -/
structure RuleResult where
  cls       : Nat := 2
  essential : Bool := false
  pin       : Bool := false
  deriving DecidableEq, Repr

/-- Whether a rule's protocol covers a frame's (R51). -/
def RuleProto.covers : RuleProto → Proto → Bool
  | .any, _ => true
  | .tcp, p => p = .tcp
  | .udp, p => p = .udp

/-- Whether a class rule matches (R51). -/
def ClassRule.covers (r : ClassRule) (key : FlowKey) (len profile : Nat) : Bool :=
  r.inUse && r.proto.covers key.proto && r.rLo ≤ key.rPort && key.rPort ≤ r.rHi && r.lLo ≤ key.lPort &&
    key.lPort ≤ r.lHi && r.sLo ≤ len && len ≤ r.sHi && (r.profile = none || r.profile = some profile)

/-- The first matching rule decides (R51). -/
def matchRules (rules : List ClassRule) (key : FlowKey) (len profile : Nat) : RuleResult :=
  match rules.find? fun r => r.covers key len profile with
  | some r => { cls := r.cls, essential := r.essential, pin := r.pin }
  | none => {}

/-! ## Flows -/

/-- The slot of a key's flow (section 3.4). -/
def Classifier.slotOf (c : Classifier) (k : FlowKey) : Option Nat :=
  c.flows.findIdx? fun o => match o with
    | some f => f.key = k
    | none => false

/-- The flow in a slot. -/
def Classifier.flowAt (c : Classifier) (i : Nat) : Option Flow := c.flows[i]?.join

def Classifier.setFlow (i : Nat) (f : Option Flow) (c : Classifier) : Classifier := { c with flows := c.flows.set i f }

/-- Changes the flows that satisfy a condition. -/
def Classifier.mapFlows (p : Flow → Bool) (g : Flow → Flow) (c : Classifier) : Classifier :=
  { c with flows := c.flows.map fun o => o.map fun f => if p f then g f else f }

/-- Counts in the Classifier's counters. -/
def Classifier.count (f : ClCounters → ClCounters) (c : Classifier) : Classifier := { c with counters := f c.counters }

/-- The classifier class (R55). -/
def Flow.classBy (f : Flow) (transit : Bool) : Nat :=
  if transit then f.hint.getD f.ruleClass
  else if f.pinned then f.ruleClass
  else if f.detected then 0
  else f.ruleClass

/-- The effective class and suppressed flag of a classifier class under a station's entry (R56, R138). A held effective
state is present exactly on SERVING and ARRIVING entries (R137). -/
def effUnder (e : ScheduleEngine) (st : Option Station) (k : Nat) (essential : Bool) : Nat × Bool :=
  match st with
  | some x =>
    match x.eff with
    | some v => judge v (e.active.profile x.profile) k essential
    | none => (k, false)
  | none => (k, false)

/-- Whether the station's entry is AWAY, so that its flows are transit flows (R55). -/
def transitOf : Option Station → Bool
  | some x => x.st.isAway
  | none => false

/-- A flow handed over: classifier class, effective class and suppressed flag written for the station's entry (R55,
R56). -/
def Flow.handOver (f : Flow) (e : ScheduleEngine) (st : Option Station) : Flow :=
  let k := f.classBy (transitOf st)
  let r := effUnder e st k f.essential
  { f with clsClass := k, effClass := r.1, suppressed := r.2 }

/-- The classifier class computed again; the flow is handed over when it changed (R55, R56). -/
def Flow.reclass (f : Flow) (e : ScheduleEngine) (st : Option Station) : Flow :=
  if f.classBy (transitOf st) = f.clsClass then f else f.handOver e st

/-- The effective class and suppressed flag written from the classifier class as it stands (R138). -/
def Flow.apply (f : Flow) (e : ScheduleEngine) (st : Option Station) : Flow :=
  let r := effUnder e st f.clsClass f.essential
  { f with effClass := r.1, suppressed := r.2 }

/-- The state of a station applied to its flows (R138), or removed from them (R137). -/
def applyFlows (a : Addr) (s : State) : State :=
  let st := s.entry a
  s.onCl (Classifier.mapFlows (fun f => f.key.station = a) fun f => f.apply s.se st)

/-! ## Notices of station entries (R57) -/

/-- The entry enters AWAY. -/
def flowsEnterAway (a : Addr) (s : State) : State :=
  s.onCl (Classifier.mapFlows (fun f => f.key.station = a) fun f =>
    { f with hint := none, clsClass := f.ruleClass, effClass := f.ruleClass, suppressed := false })

/-- The entry leaves AWAY for SERVING or ARRIVING; the state is the one after the change. -/
def flowsLeaveAway (a : Addr) (s : State) : State :=
  let st := s.entry a
  s.onCl (Classifier.mapFlows (fun f => f.key.station = a) fun f => { f with hint := none }.handOver s.se st)

/-- A pinned flow kept when its station has no entry any more: hint removed, classifier class computed again, effective
class written equal to it. -/
def Flow.orphan (f : Flow) : Flow :=
  let k := { f with hint := none }.classBy false
  { f with hint := none, clsClass := k, effClass := k, suppressed := false }

/-- The flow of a slot after its station's entry is removed. -/
def keepPinned (a : Addr) (o : Option Flow) : Option Flow :=
  match o with
  | some f => if f.key.station = a then (if f.pinned then some f.orphan else none) else some f
  | none => none

/-- The number of flows in a table. -/
def flowCount (l : List (Option Flow)) : Nat := (l.filter (·.isSome)).length

/-- The entry is removed: its unpinned flows go, counted FLOWS_REMOVED. -/
def flowsRemoved (a : Addr) (s : State) : State :=
  s.onCl fun c =>
    let kept := c.flows.map (keepPinned a)
    { c with
      flows := kept
      counters := { c.counters with flowsRemoved := satAdd c.counters.flowsRemoved (flowCount c.flows - flowCount kept) } }

/-! ## The class of a frame (R52 to R54, R61, R139) -/

/-- The age of a flow for eviction (R61). -/
def Flow.age (f : Flow) (now : Time) : Nat := ((now - f.lastSeen).toInt).toNat

/-- The eviction candidate: its slot and age. Earlier slots win at equal ages (R61). -/
def evictScan (now : Time) : Nat → List (Option Flow) → Option (Nat × Nat) → Option (Nat × Nat)
  | _, [], best => best
  | i, o :: os, best =>
    let next : Option (Nat × Nat) :=
      match o with
      | some f =>
        if f.pinned || f.cur || f.prev then best
        else
          match best with
          | some b => if b.2 < f.age now then some (i, f.age now) else best
          | none => some (i, f.age now)
      | none => best
    evictScan now (i + 1) os next

/-- A slot for a new flow: an empty one, or one emptied by eviction (R53, R61). -/
def roomForFlow (s : State) : Option (Nat × State) :=
  match lowestEmpty s.cl.flows with
  | some i => some (i, s)
  | none =>
    match evictScan s.mt 0 s.cl.flows none with
    | some (i, _) =>
      some (i, s.onCl fun c =>
        (c.setFlow i none).count fun k => { k with flowsEvicted := satInc k.flowsEvicted })
    | none => none

/-- A new flow (R53), handed over for its station's entry. -/
def newFlow (s : State) (e : Station) (key : FlowKey) (len : Nat) : Flow :=
  let r := matchRules s.cl.rules key len e.profile
  let f : Flow :=
    { key, ruleClass := r.cls, essential := r.essential, pinned := r.pin, clsClass := r.cls, effClass := r.cls,
      lastSeen := s.mt }
  f.handOver s.se (some e)

/-- A frame of a flow: the re-match if pending (R52), then the updates of R54. -/
def Flow.frame (f : Flow) (s : State) (e : Station) (len : Nat) (hint : Option Nat) : Flow :=
  let rematched :=
    if f.rematch then
      let r := matchRules s.cl.rules f.key len e.profile
      { f with ruleClass := r.cls, essential := r.essential, pinned := r.pin, rematch := false }.reclass s.se (some e)
    else f
  let counted :=
    { rematched with
      packets := satAdd rematched.packets 1
      bytes := satAdd rematched.bytes len
      cur := true
      lastSeen := s.mt }
  match hint with
  | some h => if e.st.isAway then { counted with hint := some h }.reclass s.se (some e) else counted
  | none => counted

/-- What classification answers: the class the frame leaves with and whether its schedule drops it, and the state
after. -/
structure Classed where
  cls        : Nat
  suppressed : Bool
  state      : State

/-- Activity bytes of an entry (R54). -/
def addActivity (a : Addr) (len : Nat) (s : State) : State :=
  s.modifyEntry a fun e => { e with activity := satAdd e.activity len }

/-- Whether a frame from a port may use an entry for a flow (R53). -/
def usable (p : Port) (e : Station) : Bool := if p = .fp1 ∨ p = .fp2 then e.st.served else true

/-- The class rules alone, then the schedule of R139. `held` is the effective state that applies, with its profile. -/
def rulesOnly (r : RuleResult) (held : Option (EffState × Profile)) (s : State) : Classed :=
  match held with
  | some (v, p) => let j := judge v p r.cls r.essential
                   { cls := j.1, suppressed := j.2, state := s }
  | none => { cls := r.cls, suppressed := false, state := s }

/-- A frame of a station with a usable entry whose flow is in, or gets, a slot. -/
def throughFlow (i : Nat) (e : Station) (len : Nat) (hint : Option Nat) (f : Flow) (s : State) : Classed :=
  let g := f.frame s e len hint
  { cls := g.effClass, suppressed := g.suppressed,
    state := addActivity e.addr len (s.onCl (Classifier.setFlow i (some g))) }

/-- Stage 3 of the intake for a frame whose station has a usable entry (R53, R61, R139). -/
def classifyUsable (p : Port) (e : Station) (len : Nat) (hint : Option Nat) (key : FlowKey) (s : State) : Classed :=
  match s.cl.slotOf key with
  | some i =>
    match s.cl.flowAt i with
    | some f => throughFlow i e len hint f s
    | none => { cls := 2, suppressed := false, state := s }
  | none =>
    match roomForFlow s with
    | some (i, s1) =>
      throughFlow i e len hint (newFlow s1 e key len)
        (s1.onCl (Classifier.count fun k => { k with flowsCreated := satInc k.flowsCreated }))
    | none =>
      let s1 := (s.onCl (Classifier.count fun k => { k with flowFull := satInc k.flowFull })).onIo (raise (.tableFull key))
      let s2 := if p = .fp1 ∨ p = .fp2 then addActivity e.addr len s1 else s1
      rulesOnly (matchRules s.cl.rules key len e.profile)
        (e.eff.map fun v => (v, s.se.active.profile e.profile)) s2

/-- Stage 3 of the intake for any other frame (R51, R53, R139). `e` is the frame's station's entry, if it has one. A frame
from FP1 or FP2 whose entry is AWAY or DETACHED is judged as one without a usable entry (DESIGN CHOICE, log 60). -/
def classifyRules (p : Port) (e : Option Station) (frame : List Byte) (s : State) : Classed :=
  let s1 := s.onCl (Classifier.count fun k => { k with rulesOnly := satInc k.rulesOnly })
  if p = .fp1 ∨ p = .fp2 then
    let a := linkSrc frame
    let id := s.se.active.member a
    let s2 := match e with
      | some x => addActivity x.addr frame.length s1
      | none => s1
    rulesOnly (matchRules s.cl.rules (flowKey a frame) frame.length id)
      (some (s.se.overridden id, s.se.active.profile id)) s2
  else
    rulesOnly (matchRules s.cl.rules (keyOf false 0 frame) frame.length 0) none s1

/-- Stage 3 of the intake (R53): `e` is the entry of the frame's station, `hint` the class field of a mesh header. -/
def classify (p : Port) (e : Option Station) (hint : Option Nat) (frame : List Byte) (s : State) : Classed :=
  match e with
  | some x =>
    if usable p x then classifyUsable p x frame.length hint (flowKey x.addr frame) s
    else classifyRules p e frame s
  | none => classifyRules p e frame s

/-! ## Period end (R59, R60) -/

/-- Whether a flow's period qualifies (R59). -/
def Flow.qualifies (f : Flow) (p : ClassifierParams) : Bool :=
  p.pmin ≤ f.packets && f.packets ≤ p.pmax && f.bytes ≤ f.packets * p.smax

/-- The score after a period (R59). -/
def Flow.nextScore (f : Flow) (p : ClassifierParams) : Nat :=
  if f.qualifies p then min (f.q + 1) 7 else f.q - 1

/-- One flow scored, with its events (R59). -/
def scoreFlow (i : Nat) (s : State) : State :=
  match s.cl.flowAt i with
  | none => s
  | some f =>
    if f.pinned then s
    else
      let st := s.entry f.key.station
      let put (g : Flow) (x : State) : State := x.onCl (Classifier.setFlow i (some (g.reclass s.se st)))
      if f.key.proto = .udp then
        let q := f.nextScore s.cl.inUse
        if s.cl.inUse.tp ≤ q ∧ !f.detected then
          (put { f with q, detected := true } (s.onCl (Classifier.count fun k => { k with gameStarts := satInc k.gameStarts }))).onIo
            (raise (.gameStarted f.key i q))
        else if q = 0 ∧ f.detected then
          (put { f with q, detected := false } (s.onCl (Classifier.count fun k => { k with gameEnds := satInc k.gameEnds }))).onIo
            (raise (.gameEnded f.key i))
        else put { f with q } s
      else put { f with q := 0, detected := false } s

/-- The bookkeeping of a period for one flow (R60). -/
def Flow.endPeriod (f : Flow) : Flow :=
  { f with
    idle := if f.cur then 0 else satInc8 f.idle
    prev := f.cur
    cur := false
    packets := 0
    bytes := 0 }

/-- Whether a flow is removed by aging (R60). -/
def Flow.aged (f : Flow) (limit : Nat) : Bool := !f.pinned && limit ≤ f.idle

/-- R60 for every flow. -/
def Classifier.age (c : Classifier) : Classifier :=
  let ended := c.flows.map fun o => o.map Flow.endPeriod
  let kept := ended.map fun o => o.filter fun f => !f.aged c.inUse.idle
  { c with
    flows := kept
    counters := { c.counters with flowsAged := satAdd c.counters.flowsAged (flowCount ended - flowCount kept) } }

/-- The parameters as written are used from a period end on (R58, log 33). -/
def Classifier.takeParams (c : Classifier) : Classifier := { c with inUse := c.params }

/-- The Classifier's period end (R58, R59, then R60). The flows are scored in slot order (DESIGN CHOICE,
log 34). -/
def classifierPeriod (s : State) : State :=
  ((List.range Config.flowCount).foldl (fun x i => scoreFlow i x) (s.onCl Classifier.takeParams)).onCl Classifier.age

/-! ## Game activity (R62) -/

/-- Whether a station with an entry is game-active (R62). -/
def State.gameActive (s : State) (a : Addr) : Bool :=
  (s.entry a).isSome && s.cl.flows.any fun o => match o with
    | some f => f.key.station = a && f.effClass = 0 && (f.cur || f.prev)
    | none => false

/-- Whether the node is game-active (R62). -/
def State.nodeGameActive (s : State) : Bool :=
  s.su.table.any fun o => match o with
    | some e => e.st.served && s.gameActive e.addr
    | none => false

/-! ## Hints (R63, R64) -/

/-- The flows of a station with effective class 0, in slot order. -/
def gameFlows (a : Addr) (c : Classifier) : List Flow :=
  (c.flows.filterMap id).filter fun f => f.key.station = a && f.effClass = 0

/-- The hints of a station (R63): by score from highest to lowest, then slot order, at most 8. -/
def State.hintsOf (s : State) (a : Addr) : List Hint :=
  (([7, 6, 5, 4, 3, 2, 1, 0].flatMap fun q => (gameFlows a s.cl).filter fun f => f.q = q).take 8).map fun f =>
    { proto := f.key.proto, rPort := f.key.rPort, lPort := f.key.lPort, rAddr := f.key.rAddr }

/-- The key a hint names for a station. -/
def hintKey (h : Hint) (a : Addr) : FlowKey :=
  { station := a, proto := h.proto, rPort := h.rPort, lPort := h.lPort, rAddr := h.rAddr }

/-- One hint taken (R64), with the T_p in use since the latest period end (R58, log 33). -/
def takeHint (a : Addr) (s : State) (h : Hint) : State :=
  let key := hintKey h a
  let st := s.entry a
  let tp := s.cl.inUse.tp
  match s.cl.slotOf key with
  | some i =>
    let s1 := s.onCl (Classifier.count fun k => { k with hintsMerged := satInc k.hintsMerged })
    match s.cl.flowAt i with
    | none => s1
    | some f =>
      if f.pinned then s1
      else
        let s2 := s1.onCl (Classifier.setFlow i (some ({ f with q := max f.q tp, detected := true }.reclass s.se st)))
        if f.detected then s2 else s2.onIo (raise (.gameStarted key i (max f.q tp)))
  | none =>
    match lowestEmpty s.cl.flows with
    | some i =>
      let f : Flow :=
        { key, ruleClass := 2, essential := false, pinned := false, rematch := true, q := tp, detected := true,
          clsClass := 0, effClass := 0, lastSeen := s.mt }
      (s.onCl fun c => (c.setFlow i (some (f.handOver s.se st))).count fun k =>
        { k with hintFlows := satInc k.hintFlows }).onIo (raise (.gameStarted key i tp))
    | none =>
      (s.onCl (Classifier.count fun k => { k with hintsRefused := satInc k.hintsRefused })).onIo (raise (.hintRefused key))

/-- The hints of a RELEASE taken in order (R64). -/
def takeHints (a : Addr) (hs : List Hint) (s : State) : State := hs.foldl (takeHint a) s

/-- Every flow that satisfies a condition is marked for re-match (R52). -/
def markRematch (p : Flow → Bool) (s : State) : State :=
  s.onCl (Classifier.mapFlows p fun f => { f with rematch := true })

/-! ## RESTART (R67) -/

/-- A flow as RESTART keeps it. -/
def Flow.restarted (f : Flow) : Flow :=
  { f.orphan with packets := 0, bytes := 0, cur := false, prev := false, idle := 0 }

def Classifier.restart (c : Classifier) : Classifier :=
  { c with
    flows := c.flows.map fun o => (o.filter (·.pinned)).map Flow.restarted
    counters := {} }

/-! ## Requests of the Classifier -/

/-- A class rule's fields as READ ENTRY returns them (R50). -/
def ruleBytes (r : ClassRule) : List Byte :=
  flagByte r.inUse ++ be 1 (ruleProtoCode r.proto) ++ be 2 r.rLo ++ be 2 r.rHi ++ be 2 r.lLo ++ be 2 r.lHi ++
    be 2 r.sLo ++ be 2 r.sHi ++ be 1 (r.profile.getD 0) ++ be 1 r.cls ++ flagByte r.essential ++ flagByte r.pin

/-- READ ENTRY on the class rules (R50). -/
def readRule (index : Nat) (s : State) : Answer :=
  match s.cl.rules[index]? with
  | some r => { state := s, status := .ok, records := [ruleBytes r] }
  | none => refuse .notFound s

/-- Whether a class rule write is malformed (R50). -/
def ruleFieldsBad (f : ClassRuleFields) : Bool :=
  f.rHi < f.rLo || f.lHi < f.lLo || f.sHi < f.sLo || 31 < f.profile

/-- The entry a class rule write makes (R50). -/
def ruleEntry (f : ClassRuleFields) (p : RuleProto) : ClassRule where
  inUse := true
  proto := p
  rLo := f.rLo
  rHi := f.rHi
  lLo := f.lLo
  lHi := f.lHi
  sLo := min f.sLo 1518
  sHi := min f.sHi 1518
  profile := if f.profile = 0 then none else some f.profile
  cls := min f.cls 3
  essential := f.essential
  pin := f.pin

/-- A class rule table write that reaches every flow (R50, R52). -/
def setRule (index : Nat) (r : ClassRule) (s : State) : State :=
  markRematch (fun _ => true) (s.onCl fun c => { c with rules := c.rules.set index r })

/-- WRITE ENTRY on the class rules (R50). The index is tested before the fields (DESIGN CHOICE, log 45). -/
def writeRule (index : Nat) (f : ClassRuleFields) (s : State) : Answer :=
  if Config.ruleCount ≤ index then refuse .notFound s
  else
    match ruleProtoOf f.proto with
    | none => refuse .malformed s
    | some p => if ruleFieldsBad f then refuse .malformed s else ok (setRule index (ruleEntry f p) s)

/-- CLEAR ENTRY on the class rules (R50). -/
def clearRule (index : Nat) (s : State) : Answer :=
  match s.cl.rules[index]? with
  | some r => ok (setRule index { r with inUse := false } s)
  | none => refuse .notFound s

/-- A flow record's fields as READ ENTRY returns them (section 3.4). -/
def flowBytes (f : Flow) : List Byte :=
  keyBytes f.key ++ be 1 f.ruleClass ++ flagByte f.essential ++ flagByte f.pinned ++ flagByte f.rematch ++ be 1 f.q ++
    flagByte f.detected ++ optBytes (be 1) f.hint ++ be 1 f.clsClass ++ be 1 f.effClass ++ flagByte f.suppressed ++
    be 4 f.packets ++ be 4 f.bytes ++ beTime f.lastSeen ++ flagByte f.cur ++ flagByte f.prev ++ be 1 f.idle

/-- READ ENTRY on the flow table (R65). -/
def readFlow (slot : Nat) (s : State) : Answer :=
  match s.cl.flowAt slot with
  | some f => { state := s, status := .ok, records := [flowBytes f] }
  | none => refuse .notFound s

/-- CLEAR ENTRY on the flow table (R65). -/
def clearFlow (slot : Nat) (s : State) : Answer :=
  match s.cl.flowAt slot with
  | some _ => ok (s.onCl fun c => (c.setFlow slot none).count fun k => { k with flowsCleared := satInc k.flowsCleared })
  | none => refuse .notFound s

/-- SET CLASSIFIER PARAMETERS (R58). -/
def writeClassifierParams (f : ClassifierFields) (p : ClassifierParams) : ClassifierParams where
  pmin := (f.pmin.map (clamp 1 1000)).getD p.pmin
  pmax := (f.pmax.map (clamp 1 65535)).getD p.pmax
  smax := (f.smax.map (clamp 40 1500)).getD p.smax
  tp := (f.tp.map (clamp 1 7)).getD p.tp
  idle := (f.idle.map (clamp 1 255)).getD p.idle

def execReadEntryClassRule (h : ReqHead) (index : Nat) (s : State) : Host.Outcome State Fault Refusal :=
  .next (request h 4 (readRule index) s)

def execWriteEntryClassRule (h : ReqHead) (index : Nat) (f : ClassRuleFields) (s : State) :
    Host.Outcome State Fault Refusal :=
  .next (request h 5 (writeRule index f) s)

def execClearEntryClassRule (h : ReqHead) (index : Nat) (s : State) : Host.Outcome State Fault Refusal :=
  .next (request h 6 (clearRule index) s)

def execReadEntryFlow (h : ReqHead) (slot : Nat) (s : State) : Host.Outcome State Fault Refusal :=
  .next (request h 4 (readFlow slot) s)

/-- Refused with MALFORMED whatever the slot (R65). -/
def execWriteEntryFlow (h : ReqHead) (_slot : Nat) (s : State) : Host.Outcome State Fault Refusal :=
  .next (request h 5 (refuse .malformed) s)

def execClearEntryFlow (h : ReqHead) (slot : Nat) (s : State) : Host.Outcome State Fault Refusal :=
  .next (request h 6 (clearFlow slot) s)

def execSetClassifierParameters (h : ReqHead) (f : ClassifierFields) (s : State) : Host.Outcome State Fault Refusal :=
  .next (request h 25 (fun x => ok (x.onCl fun c => { c with params := writeClassifierParams f c.params })) s)

end Sys2Proof.Machine
end

