-- ==== Sys2Proof/Machine/Stations.lean ====
section
/-! DEFINITION. The Station Unit (chapter 5): entries and their notices, signal levels, a full table, hearing reports,
steering, the purge, and the Station Unit's requests; with the Schedule Engine's computation of a station's effective
state, which those notices call. -/

namespace Sys2Proof.Machine

/-! ## Entries and notices (R89, R137) -/

/-- Counts in the Station Unit's counters. -/
def State.countSu (f : SuCounters → SuCounters) (s : State) : State := s.onSu fun u => { u with counters := f u.counters }

/-- Counts in the Schedule Engine's counters. -/
def State.countSe (f : SeCounters → SeCounters) (s : State) : State := s.onSe fun e => { e with counters := f e.counters }

/-- The effective state of a station computed, held and applied to its flows (R137, R138). The first computation on
entering SERVING or ARRIVING finds no held state and raises no event. -/
def computeState (a : Addr) (s : State) : State :=
  match s.entry a with
  | none => s
  | some e =>
    let new := s.se.effective e.profile e.st
    let s1 := s.modifyEntry a fun x => { x with eff := new }
    let s2 := match e.eff, new with
      | some o, some n =>
        if o = n then s1
        else (s1.countSe fun k => { k with stateChanges := satInc k.stateChanges }).onIo (raise (.stateChanged a o n))
      | _, _ => s1
    applyFlows a s2

/-- The addresses of the entries that satisfy a condition, in slot order. -/
def addrsWhere (p : Station → Bool) (u : StationUnit) : List Addr :=
  u.table.filterMap fun o => (o.filter p).map (·.addr)

/-- The effective states of the SERVING and ARRIVING stations that satisfy a condition computed again (R137), in the order
of their slots (DESIGN CHOICE, log 41). -/
def computeStates (p : Station → Bool) (s : State) : State :=
  (addrsWhere (fun e => e.st.served && p e) s.su).foldl (fun x a => computeState a x) s

/-- An entry takes a new state, with the notices of R89: the Classifier's (R57), then the Schedule Engine's (R137). -/
def changeState (a : Addr) (st : StState) (s : State) : State :=
  match s.entry a with
  | none => s
  | some e =>
    let s1 := s.modifyEntry a fun x => { x with st, since := s.mt, dwell := 0 }
    let s2 :=
      if st.isAway then (if e.st.isAway then s1 else flowsEnterAway a s1)
      else if e.st.isAway then flowsLeaveAway a s1
      else s1
    computeState a s2

/-- An entry is removed, with the notices of R89. -/
def removeEntry (a : Addr) (s : State) : State :=
  flowsRemoved a (s.onSu fun u => { u with table := u.table.map fun o => o.filter fun e => e.addr ≠ a })

/-- A new entry in a slot (R89). -/
def putEntry (i : Nat) (a : Addr) (st : StState) (s : State) : State :=
  s.onSu fun u =>
    { u with table := u.table.set i (some { addr := a, st, profile := s.se.active.member a, since := s.mt }) }

/-- Whether the Handoff Unit holds a context for a station. -/
def HandoffUnit.holds (h : HandoffUnit) (a : Addr) : Bool :=
  h.slots.any fun x => match x.ctx with
    | some c => c.station = a
    | none => false

/-- The allowance fields of an entry (section 5.1). -/
def StState.allowance : StState → Option Allowance
  | .serving _ a => some a
  | .detached a => some a
  | .arriving _ _ => none
  | .away _ _ => none

/-- The allowance fields written. -/
def StState.withAllowance (st : StState) (a : Allowance) : StState :=
  match st with
  | .serving r _ => .serving r a
  | .detached _ => .detached a
  | x => x

/-! ## Levels (R90) -/

/-- The smoothed level after a reading `l`, already clamped (R90). -/
def smooth (s : Option Int) (l : Int) : Int :=
  match s with
  | none => 16 * l
  | some v => v + Int.tdiv (16 * l - v) 8

/-- A level taken for an entry (R90). -/
def Station.takeLevel (level : Int) (e : Station) : Station :=
  let l := clampInt (-100) (-10) level
  { e with own := some l, level := some (smooth e.level l) }

/-! ## A full table (R95) -/

/-- The candidate of greatest age among the entries that satisfy a condition; earlier slots win at equal ages. -/
def oldest (now : Time) (p : Station → Bool) : List (Option Station) → Option Station → Option Station
  | [], best => best
  | o :: os, best =>
    let next : Option Station :=
      match o with
      | some e =>
        if p e then
          match best with
          | some b => if (now - b.since).toNat < (now - e.since).toNat then some e else best
          | none => some e
        else best
      | none => best
    oldest now p os next

/-- The entry R95 evicts. -/
def evictee (s : State) : Option Station :=
  let free (e : Station) : Bool := !s.hu.holds e.addr
  match oldest s.mt (fun e => free e && (match e.st with
      | .detached _ => true
      | _ => false)) s.su.table none with
  | some e => some e
  | none => oldest s.mt (fun e => free e && e.st.isAway) s.su.table none

/-- A slot for a new entry, an empty one or one emptied by eviction, and the state after (R89, R95). -/
def roomForStation (s : State) : Option (Nat × State) :=
  match lowestEmpty s.su.table with
  | some i => some (i, s)
  | none =>
    match evictee s with
    | some e =>
      let s1 := removeEntry e.addr (s.countSu fun k => { k with stationsEvicted := satInc k.stationsEvicted })
      (lowestEmpty s1.su.table).map fun i => (i, s1)
    | none => none

/-- A station that runs without an entry (R95). -/
def noEntry (a : Addr) (r : Radio) (s : State) : State :=
  (s.countSu fun k => { k with stationFull := satInc k.stationFull }).onIo (raise (.noEntry a (radioPort r)))

/-! ## Hearing reports (R96, R97) -/

/-- Whether a report is due for an entry (R96), and the server it goes to. -/
def Station.reportTo (e : Station) (own : Nat) : Option Nat :=
  match e.st with
  | .away (some n) _ => if n ≠ own ∧ e.heard then some n else none
  | _ => none

/-- One slot of the scan of R96: attempts so far, the slot after the last attempt, the state. -/
def reportSlot (i : Nat) (acc : Nat × Option Nat × State) : Nat × Option Nat × State :=
  let s := acc.2.2
  if 16 ≤ acc.1 then acc
  else
    match s.su.table[i]?.join with
    | none => acc
    | some e =>
      match e.reportTo s.node with
      | none => acc
      | some n =>
        let r := sendStation n
          (.hearing { station := e.addr, reporter := s.node, level := e.level.getD (-1600) }) s.io
        let s1 := s.onIo fun _ => r.2
        let s2 :=
          if r.1 then
            (s1.modifyEntry e.addr fun x => { x with heard := false }).countSu fun k =>
              { k with hearingsSent := satInc k.hearingsSent }
          else s1
        (acc.1 + 1, some ((i + 1) % Config.stationCount), s2)

/-- The hearing reports of a period end (R96). -/
def sendHearings (s : State) : State :=
  let r := (List.range Config.stationCount).foldl
    (fun acc k => reportSlot ((s.su.scanPos + k) % Config.stationCount) acc) (0, none, s)
  match r.2.1 with
  | some p => r.2.2.onSu fun u => { u with scanPos := p }
  | none => r.2.2

/-- Whether a hearing record is fresh (R97). -/
def Hearing.fresh (h : Hearing) (tb : TimeBase) : Bool := (tb.mt - h.mt).toInt < 4 * 2 ^ (tb.params.exponent + 6)

/-- The record replaced by a report: the reporter's, else an unused one, else the oldest, the lowest-numbered at equal
times (R97). Of several unused records the lowest-numbered is filled (DESIGN CHOICE, log 38). "Oldest"
compares last report MTs by their signed difference from now (DEDUCED, log 38). -/
def recordFor (now : Time) (node : Nat) (l : List (Option Hearing)) : Nat :=
  match l.findIdx? fun o => match o with
      | some h => h.node = node
      | none => false with
  | some i => i
  | none =>
    match lowestEmpty l with
    | some i => i
    | none =>
      let age (i : Nat) : Int := match l[i]?.join with
        | some h => (now - h.mt).toInt
        | none => 0
      (List.range l.length).foldl (fun b i => if age b < age i then i else b) 0

/-- A HEARING message at the Station Unit (R97). -/
def takeHearing (m : HearingMsg) (s : State) : State :=
  match s.entry m.station with
  | some e =>
    if e.st.served && m.reporter ≠ s.node then
      let h : Hearing := { node := m.reporter, level := clampInt (-1600) (-160) m.level, mt := s.mt }
      (s.modifyEntry m.station fun x =>
        { x with hearings := x.hearings.set (recordFor s.mt m.reporter x.hearings) (some h) }).countSu fun k =>
          { k with hearingsReceived := satInc k.hearingsReceived }
    else s.countSu fun k => { k with hearingsIgnored := satInc k.hearingsIgnored }
  | none => s.countSu fun k => { k with hearingsIgnored := satInc k.hearingsIgnored }

/-- Records no longer fresh removed (R97). -/
def dropStale (s : State) : State :=
  s.onSu fun u =>
    { u with table := u.table.map fun o => o.map fun e =>
        { e with hearings := e.hearings.map fun r => r.filter fun h => h.fresh s.tb } }

/-! ## Steering (R98) -/

/-- The best fresh record: the highest level, the lower node id at equal levels. -/
def bestHearing (tb : TimeBase) (l : List (Option Hearing)) : Option Hearing :=
  l.foldl (fun b o => match b, o with
    | none, some h => if h.fresh tb then some h else none
    | some x, some h =>
      if h.fresh tb && (x.level < h.level || (x.level = h.level && h.node < x.node)) then some h else b
    | _, none => b) none

/-- Steps 4 and 5 of R98 for a SERVING entry. -/
def steerTest (radio : Radio) (e : Station) (s0 : Int) (best : Hearing) (active : Bool) (s : State) : State :=
  let p := s.su.params
  let hyst := if active then p.gameHyst else p.hyst
  let thr := if active then p.gameThr else p.thresh
  if s0 + 16 * hyst ≤ best.level ∧ s0 < 16 * thr then
    if p.dwell ≤ e.dwell + 1 then
      ((s.modifyEntry e.addr fun x => { x with dwell := 0, holdOff := p.holdOff }).onSu fun u =>
        { u with
          steers := u.steers ++ [{ radio, station := e.addr, node := best.node }]
          counters := { u.counters with steersSent := satInc u.counters.steersSent } }).onIo
        (raise (.steered e.addr best.node s0 best.level))
    else s.modifyEntry e.addr fun x => { x with dwell := e.dwell + 1 }
  else s.modifyEntry e.addr fun x => { x with dwell := 0 }

/-- One entry judged at a period end (R98). `before` is the state before the Classifier's period end: whether the
question of game activity meets it or the state after is a free value (log 10). -/
def steerEntry (before : State) (s : State) (i : Nat) : State :=
  match s.su.table[i]?.join with
  | none => s
  | some e =>
    if 0 < e.holdOff then s.modifyEntry e.addr fun x => { x with holdOff := e.holdOff - 1 }
    else
      match e.st with
      | .serving radio _ =>
        match e.level, bestHearing s.tb e.hearings with
        | some s0, some best =>
          let active := if Config.steerAsksFirst s.io.freeCount then before.gameActive e.addr else s.gameActive e.addr
          steerTest radio e s0 best active (s.onIo Io.bumpFree)
        | _, _ => s.modifyEntry e.addr fun x => { x with dwell := 0 }
      | _ => s

/-- The Station Unit's period end (R96 to R98): the hearing reports, then the removal of stale records and the steering,
entry by entry in slot order (DESIGN CHOICE, log 34). -/
def stationPeriod (before : State) (s : State) : State :=
  (List.range Config.stationCount).foldl (steerEntry before)
    (dropStale (sendHearings (s.onSu fun u => { u with steers := [] })))

/-! ## The end of the day (R99) -/

/-- A day boundary at the Station Unit: every DETACHED entry without a context is removed. -/
def purge (s : State) : State :=
  (addrsWhere (fun e => (match e.st with
      | .detached _ => true
      | _ => false) && !s.hu.holds e.addr) s.su).foldl
    (fun x a => removeEntry a (x.countSu fun k => { k with detachedPurged := satInc k.detachedPurged })) s

/-! ## RESTART (R102) -/

def StationUnit.restart (u : StationUnit) : StationUnit :=
  { u with table := List.replicate Config.stationCount none, scanPos := 0, counters := {} }

/-! ## Requests of the Station Unit (R100) -/

/-- Allowance fields in a READ result. -/
def allowanceBytes (a : Allowance) : List Byte := be 3 a.remaining ++ be 1 a.day ++ flagByte a.known

/-- A hearing record in a READ result. -/
def recordBytes (h : Hearing) : List Byte := be 1 h.node ++ beInt 2 h.level ++ beTime h.mt

/-- The fields of a state that stand before the profile in the table of section 5.1. An unknown server of an AWAY entry is
one byte 0 (DESIGN CHOICE, log 39). -/
def stHeadBytes : StState → List Byte
  | .serving r _ => be 1 (portNum (radioPort r))
  | .arriving r _ => optBytes (fun x => be 1 (portNum (radioPort x))) r ++ flagByte r.isNone
  | .detached _ => []
  | .away n p => be 1 (n.getD 0) ++ optBytes (fun x => be 1 x.1 ++ beTime x.2) p

/-- The fields of a state that stand behind the hearing records. -/
def stTailBytes : StState → List Byte
  | .serving _ a => allowanceBytes a
  | .arriving _ c => be 3 c
  | .detached a => allowanceBytes a
  | .away _ _ => []

/-- A station entry's fields as READ ENTRY returns them (section 5.1). -/
def entryBytes (e : Station) : List Byte :=
  be 6 e.addr.toNat ++ be 1 (stCode e.st) ++ stHeadBytes e.st ++ be 1 e.profile ++ optBytes (beInt 2) e.level ++
    optBytes (beInt 2) e.own ++ flagByte e.heard ++ listBytes recordBytes (e.hearings.filterMap id) ++ stTailBytes e.st ++
    be 4 e.activity ++ be 2 e.dwell ++ be 1 e.holdOff ++ beTime e.since

/-- READ ENTRY on the station table (R100). -/
def readStationEntry (slot : Nat) (s : State) : Answer :=
  match s.su.table[slot]?.join with
  | some e => { state := s, status := .ok, records := [entryBytes e] }
  | none => refuse .notFound s

/-- CLEAR ENTRY on the station table (R100). -/
def clearStationEntry (slot : Nat) (s : State) : Answer :=
  match s.su.table[slot]?.join with
  | some e =>
    if s.hu.holds e.addr then refuse .wrongState s
    else ok (removeEntry e.addr (s.countSu fun k => { k with stationsCleared := satInc k.stationsCleared }))
  | none => refuse .notFound s

/-- SET STEERING PARAMETERS (section 5.6). -/
def writeSteeringParams (f : SteeringFields) (p : SteeringParams) : SteeringParams where
  hyst := (f.hyst.map (clampInt 0 30)).getD p.hyst
  thresh := (f.thresh.map (clampInt (-100) (-10))).getD p.thresh
  gameHyst := (f.gameHyst.map (clampInt 0 30)).getD p.gameHyst
  gameThr := (f.gameThr.map (clampInt (-100) (-10))).getD p.gameThr
  dwell := (f.dwell.map (clamp 1 15)).getD p.dwell
  holdOff := (f.holdOff.map (clamp 1 255)).getD p.holdOff

/-- The arrival of a frame with a HEARING message for this node (R36, R97). -/
def execHearingReceived (m : HearingMsg) (s : State) : Host.Outcome State Fault Refusal :=
  .next (takeManaged .fp3 .station (meshLen + (stationBytes (.hearing m)).length) (takeHearing m) s)

def execReadEntryStation (h : ReqHead) (slot : Nat) (s : State) : Host.Outcome State Fault Refusal :=
  .next (request h 4 (readStationEntry slot) s)

/-- Refused with MALFORMED whatever the slot (R100). -/
def execWriteEntryStation (h : ReqHead) (_slot : Nat) (s : State) : Host.Outcome State Fault Refusal :=
  .next (request h 5 (refuse .malformed) s)

def execClearEntryStation (h : ReqHead) (slot : Nat) (s : State) : Host.Outcome State Fault Refusal :=
  .next (request h 6 (clearStationEntry slot) s)

def execSetSteeringParameters (h : ReqHead) (f : SteeringFields) (s : State) : Host.Outcome State Fault Refusal :=
  .next (request h 28 (fun x => ok (x.onSu fun u => { u with params := writeSteeringParams f u.params })) s)

end Sys2Proof.Machine
end

