-- ==== Sys2Proof/Machine/Handoff.lean ====
section
/-! DEFINITION. The Handoff Unit (chapter 6): contexts, arrivals, claims, departures, forwarding, releases, chains, and
the Handoff Unit's requests. -/

namespace Sys2Proof.Machine

/-! ## Context slots (R103) -/

/-- Counts in the Handoff Unit's counters. -/
def State.countHu (f : HuCounters → HuCounters) (s : State) : State := s.onHu fun h => { h with counters := f h.counters }

/-- The context in a slot. -/
def HandoffUnit.ctxAt (h : HandoffUnit) (i : Nat) : Option Context := (h.slots[i]?).bind (·.ctx)

/-- Changes the context in a slot. -/
def State.modifyCtx (i : Nat) (f : Context → Context) (s : State) : State :=
  s.onHu fun h => { h with slots := h.slots.modify i fun x => { x with ctx := x.ctx.map f } }

/-- Frees a slot; its generation stays. -/
def State.freeCtx (i : Nat) (s : State) : State :=
  s.onHu fun h => { h with slots := h.slots.modify i fun x => { x with ctx := none } }

/-- A new context takes a slot, and the slot's generation rises by one, modulo 256 (R103). -/
def State.placeCtx (i : Nat) (c : Context) (s : State) : State :=
  s.onHu fun h => { h with slots := h.slots.modify i fun x => { gen := (x.gen + 1) % 256, ctx := some c } }

/-- The role and state of the context in a slot. -/
def HandoffUnit.stAt (h : HandoffUnit) (i : Nat) : Option CtxState := (h.ctxAt i).map (·.st)

/-- The state of a station's entry. -/
def State.stOf (s : State) (a : Addr) : Option StState := (s.entry a).map (·.st)

/-- The lowest-numbered free slot. -/
def HandoffUnit.freeSlot (h : HandoffUnit) : Option Nat := h.slots.findIdx? (·.ctx.isNone)

def CtxState.isArrive : CtxState → Bool
  | .arrive _ => true
  | _ => false

/-- The slot of a station's context of one role. -/
def HandoffUnit.slotOf (h : HandoffUnit) (arrive : Bool) (a : Addr) : Option Nat :=
  h.slots.findIdx? fun x => match x.ctx with
    | some c => c.station = a && c.st.isArrive == arrive
    | none => false

/-- The slot and the context of a station's ARRIVE context. -/
def State.arriveOf (s : State) (a : Addr) : Option (Nat × Context) :=
  (s.hu.slotOf true a).bind fun i => (s.hu.ctxAt i).map fun c => (i, c)

/-- The slot and the context of a station's DEPART context. -/
def State.departOf (s : State) (a : Addr) : Option (Nat × Context) :=
  (s.hu.slotOf false a).bind fun i => (s.hu.ctxAt i).map fun c => (i, c)

/-- The hold queue of a context. -/
def CtxState.hold : CtxState → List QFrame
  | .arrive w => w.hold
  | .await w _ _ _ _ _ => w.hold
  | .depart _ _ _ _ _ _ => []

/-- Changes the fields of a context that waits for a RELEASE. -/
def CtxState.onWaiting (f : Waiting → Waiting) : CtxState → CtxState
  | .arrive w => .arrive (f w)
  | .await w p c t n o => .await (f w) p c t n o
  | x => x

def State.onWaiting (i : Nat) (f : Waiting → Waiting) (s : State) : State :=
  s.modifyCtx i fun c => { c with st := c.st.onWaiting f }

/-- The cells of all hold queues. -/
def HandoffUnit.holdCells (h : HandoffUnit) : Nat :=
  (h.slots.map fun x => match x.ctx with
    | some c => queueCells c.st.hold
    | none => 0).sum

/-- A 16-bit count of frames raised by one; above its range a free value (log 9). -/
def next16 (io : Io) (n : Nat) : Nat := if n < 65535 then n + 1 else Config.freeNat io.freeCount % 65536

/-- The sum of two 16-bit counts; above the range a free value (log 9). -/
def sum16 (io : Io) (n m : Nat) : Nat := if n + m ≤ 65535 then n + m else Config.freeNat io.freeCount % 65536

/-- Changes the forwarded and outstanding counts of a context. -/
def CtxState.onCounts (f g : Nat → Nat) : CtxState → CtxState
  | .await w p c t n o => .await w p c t (f n) (g o)
  | .depart b t l n o sn => .depart b t l (f n) (g o) sn
  | x => x

/-- The allowance snapshot of a context. -/
def CtxState.snapshot : CtxState → Option Allowance
  | .depart _ _ _ _ _ sn => sn
  | _ => none

def CtxState.dropSnapshot : CtxState → CtxState
  | .depart b t l n o _ => .depart b t l n o none
  | x => x

/-! ## Messages -/

/-- A CLAIM broadcast by this node (R105, R106, R112). -/
def sendClaim (a : Addr) (prev : Nat) (cutover : Time) (s : State) : State :=
  let r := sendStation 0 (.claim { station := a, claimant := s.node, prev, cutover }) s.io
  let s1 := s.onIo fun _ => r.2
  if r.1 then s1.countHu fun k => { k with claimsSent := satInc k.claimsSent } else s1

/-- The cutover of a CLAIM built now (R105, R106). -/
def claimCutover (s : State) : Time := s.mt + BitVec.ofNat 48 (s.hu.params.claimDelay * s.tb.cycle)

/-- An allowance with the known flag clear; its other fields are free values (log 9). -/
def unknownAllowance (io : Io) : Allowance :=
  { remaining := Config.freeNat io.freeCount % 86401, day := Config.freeNat (io.freeCount + 1) % 7, known := false }

/-- The allowance a RELEASE carries (R118). -/
def releaseAllowance (io : Io) (sn : Option Allowance) : Allowance := sn.getD (unknownAllowance io)

/-- A RELEASE built and placed (R118, R119, R123); whether it was taken. -/
def sendRelease (a : Addr) (peer forwarded : Nat) (sn : Option Allowance) (hints : List Hint) (s : State) :
    Bool × State :=
  let profile := match s.entry a with
    | some e => e.profile
    | none => 0
  let r := sendStation peer (.release { station := a, sender := s.node, forwarded, allow := releaseAllowance s.io sn,
                                        profile, hints }) s.io
  let s1 := (s.onIo fun _ => r.2).onIo fun io => if sn.isNone then io.bumpFree.bumpFree else io
  (r.1, if r.1 then s1.countHu fun k => { k with releasesSent := satInc k.releasesSent } else s1)

/-- In FLUSHING with no frame outstanding, the RELEASE is built; taken, the context is freed (R118). -/
def tryRelease (i : Nat) (s : State) : State :=
  match s.hu.ctxAt i with
  | some c =>
    match c.st with
    | .depart true _ _ n 0 sn =>
      let r := sendRelease c.station c.peer n sn c.hints s
      if r.1 then r.2.freeCtx i else r.2
    | _ => s
  | none => s

/-- FORWARDING ends (R117). -/
def CtxState.flush : CtxState → CtxState
  | .depart _ t l n o sn => .depart true t l n o sn
  | x => x

/-- A context enters FLUSHING (R117, R118). -/
def enterFlushing (i : Nat) (s : State) : State := tryRelease i (s.modifyCtx i fun c => { c with st := c.st.flush })

/-! ## Frames (R46, R108, R109, R116) -/

/-- The carried link frame of a data frame. -/
def QFrame.bytes (f : QFrame) : List Byte := f.content.payload

/-- The header of a data frame that leaves on FP3 (R46). -/
def backhaulHdr (s : State) (dst : Nat) (station : Option Addr) (f : QFrame) : MeshHdr :=
  let d := linkDst f.bytes
  { cls := f.cls, src := s.node, dst,
    station := if !isGroup d && (s.entry d).isSome then d else station.getD 0 }

/-- A data frame as it leaves on FP3 (R46). -/
def toBackhaul (s : State) (dst : Nat) (station : Option Addr) (f : QFrame) : QFrame :=
  { f with hdr := some (backhaulHdr s dst station f) }

/-- A frame forwarded to a context's peer as a FWD frame (R116), with or without the class limit test. -/
def forwardFrame (limited : Bool) (i : Nat) (s : State) (f : QFrame) : State :=
  match s.hu.slots[i]? with
  | none => s
  | some x =>
    match x.ctx with
    | none => s
    | some c =>
      let g : QFrame :=
        { f with
          hdr := some { fwd := true, cls := f.cls, src := s.node, dst := c.peer, station := c.station }
          mark := some { slot := i, gen := x.gen } }
      let r := placeClass limited .fp3 g s.io
      let s1 := s.onIo fun _ => r.2
      if r.1 then
        let o := next16 s1.io
        let full : Bool := match c.st with
          | .await _ _ _ _ _ n => 65535 ≤ n
          | .depart _ _ _ _ n _ => 65535 ≤ n
          | .arrive _ => false
        (s1.modifyCtx i fun k => { k with st := k.st.onCounts id o }).onIo fun io => if full then io.bumpFree else io
      else s1

/-- A frame dropped by the Handoff Unit: its cells freed, HOLD_DROP counted (R108, R109, R111). -/
def dropHeld (s : State) (f : QFrame) : State :=
  (s.onIo (freeCells f.cells)).countHu fun k => { k with holdDrop := satInc k.holdDrop }

/-- The drop count of a context rises. -/
def State.countDrop (i : Nat) (s : State) : State := s.modifyCtx i fun c => { c with drops := satInc16 c.drops }

/-- A frame offered to a context's hold queue (R108). -/
def holdFrame (i : Nat) (c : Context) (f : QFrame) (s : State) : State :=
  if queueCells c.st.hold + f.cells ≤ 64 ∧ s.hu.holdCells + f.cells ≤ 512 then
    s.onWaiting i fun w => { w with hold := w.hold ++ [f] }
  else (dropHeld s f).countDrop i

/-! ## Completing an arrival (R111, R112) -/

/-- Allowance fields before they are formed (R111 step 1): not known. -/
def unformed : Allowance := { remaining := 0, day := 0, known := false }

/-- Steps 1 and 2 of R111: the entry's new state, then its allowance. -/
def settleEntry (c : Context) (source : Option Allowance) (s : State) : State :=
  match s.entry c.station with
  | none => s
  | some e =>
    match e.st with
    | .arriving r charge =>
      let s1 := changeState c.station (match r with
        | some x => .serving x unformed
        | none => .detached unformed) s
      let f := formAllowance e.profile source charge (c.peer = 0) s1
      computeState c.station (f.2.modifyEntry c.station fun x => { x with st := x.st.withAllowance f.1 })
    | _ => s

/-- The snapshot of a station's DEPART context removed (R107, R111, R122). -/
def dropSnapshot (a : Addr) (s : State) : State :=
  match s.departOf a with
  | some (j, _) => s.modifyCtx j fun c => { c with st := c.st.dropSnapshot }
  | none => s

/-- Step 4 of R111: the held frames to the entry's port, or freed when the entry has none. -/
def placeHeld (i : Nat) (a : Addr) (s : State) (f : QFrame) : State :=
  match s.stOf a with
  | some (.serving r _) => s.onIo fun io => (placeClass false (radioPort r) f io).2
  | _ => (dropHeld s f).countDrop i

/-- An event HOLD_OVERFLOW when a context's drop count is above 0 (R111, R121). -/
def raiseOverflow (i : Nat) (s : State) : State :=
  match s.hu.ctxAt i with
  | some c => if 0 < c.drops then s.onIo (raise (.holdOverflow c.station c.drops)) else s
  | none => s

/-- The completion of an ARRIVE context from a source of its allowance (R111). -/
def completeArrival (i : Nat) (c : Context) (source : Option Allowance) (s : State) : State :=
  let s1 := dropSnapshot c.station (settleEntry c source s)
  let s2 := takeHints c.station c.hints s1
  let s3 := s2.onWaiting i fun w => { w with hold := [] }
  let s4 := c.st.hold.foldl (placeHeld i c.station) s3
  ((raiseOverflow i s4).freeCtx i).countHu fun k => { k with arrivalsCompleted := satInc k.arrivalsCompleted }

/-- An ARRIVE context that has counted in all its frames completes (R111). -/
def testArrival (i : Nat) (s : State) : State :=
  match s.hu.ctxAt i with
  | some c =>
    match c.st with
    | .arrive w =>
      match w.taken with
      | some t => if t.expected ≤ w.received then completeArrival i c (some t.carried) s else s
      | none => s
    | _ => s
  | none => s

/-- CONTEXT_LOST raised and counted (R112, R121). -/
def contextLost (a : Addr) (peer : Nat) (s : State) : State :=
  (s.countHu fun k => { k with contextsLost := satInc k.contextsLost }).onIo (raise (.contextLost a peer))

/-- The source of the allowance at a wait deadline (R112). -/
def deadlineSource (s : State) (a : Addr) (w : Waiting) : Option Allowance :=
  match w.taken with
  | some t => some t.carried
  | none =>
    match w.own with
    | some x => some x
    | none => (s.departOf a).bind fun d => d.2.st.snapshot

/-- The wait deadline of an ARRIVE context (R112). The completion comes first, so HOLD_OVERFLOW is raised before
CONTEXT_LOST (DESIGN CHOICE, log 42), and CONTEXT_LOST, with its NOTICE, before the second CLAIM is placed (DESIGN CHOICE,
log 54). -/
def endArrival (i : Nat) (s : State) : State :=
  match s.hu.ctxAt i with
  | some c =>
    match c.st with
    | .arrive w =>
      if reached s.tb.lt w.deadline then
        let s1 := completeArrival i c (deadlineSource s c.station w) s
        if w.taken.isNone && c.peer ≠ 0 then
          sendClaim c.station 0 s.mt (contextLost c.station c.peer s1)
        else s1
      else s
    | _ => s
  | none => s

/-! ## The end of a predecessor wait (R121) -/

/-- Whether a station's entry holds its allowance, SERVING or DETACHED. -/
def entryHolds (s : State) (a : Addr) : Bool :=
  match s.entry a with
  | some e => e.st.allowance.isSome
  | none => false

/-- The snapshot formed by step 1 of R121. -/
def formSnapshot (c : Context) (w : Waiting) (predecessor charge : Nat) (s : State) : Option Allowance × State :=
  if entryHolds s c.station then (none, s)
  else
    let profile := match s.entry c.station with
      | some e => e.profile
      | none => 0
    let source := match w.taken with
      | some t => some t.carried
      | none => w.own
    let f := formAllowance profile source charge (predecessor = 0) s
    (some f.1, f.2)

/-- Whether MT has reached a cutover plus linger cycles (R117, R121). -/
def lingerOver (s : State) (cutover : Time) (linger : Nat) : Bool :=
  reached s.mt (cutover + BitVec.ofNat 48 (linger * s.tb.cycle))

/-- The wait of an AWAIT_PREDECESSOR context ends (R121); `lost` says that the deadline ended it without a RELEASE. -/
def endAwait (i : Nat) (c : Context) (w : Waiting) (predecessor charge : Nat) (cutover : Time)
    (forwarded outstanding : Nat) (s : State) : State :=
  let f := formSnapshot c w predecessor charge s
  let s1 := if w.taken.isNone && predecessor ≠ 0 then contextLost c.station predecessor f.2 else f.2
  let linger := s.hu.params.linger
  let s2 := s1.modifyCtx i fun k => { k with st := .depart false cutover linger forwarded outstanding f.1 }
  let s3 := raiseOverflow i (w.hold.foldl (forwardFrame false i) s2)
  if lingerOver s3 cutover linger || (s3.arriveOf c.station).isSome || entryHolds s3 c.station then enterFlushing i s3
  else s3

/-- A context whose predecessor's RELEASE is taken and whose count is met ends its wait (R121). -/
def testAwait (i : Nat) (s : State) : State :=
  match s.hu.ctxAt i with
  | some c =>
    match c.st with
    | .await w p ch t n o =>
      match w.taken with
      | some k => if k.expected ≤ w.received then endAwait i c w p ch t n o s else s
      | none => s
    | _ => s
  | none => s

/-- The wait deadline of an AWAIT_PREDECESSOR context (R121). -/
def endPredecessor (i : Nat) (s : State) : State :=
  match s.hu.ctxAt i with
  | some c =>
    match c.st with
    | .await w p ch t n o => if reached s.tb.lt w.deadline then endAwait i c w p ch t n o s else s
    | _ => s
  | none => s

/-! ## FWD frames (R109) -/

/-- A FWD frame counted in by a context that waits (R109, R111, R121). -/
def countIn (i : Nat) (s : State) : State :=
  testAwait i (testArrival i (s.onWaiting i fun w => { w with received := satInc16 w.received }))

/-- A FWD frame that no context takes: sent on to another server, or LATE_FWD (R109, R118). -/
def strayFwd (a : Addr) (sender : Nat) (f : QFrame) (s : State) : State :=
  let late := (s.onIo (freeCells f.cells)).countHu fun k => { k with lateFwd := satInc k.lateFwd }
  match s.stOf a with
  | some (.away (some n) _) =>
    if n ≠ s.node ∧ n ≠ sender then s.onIo fun io => (placeClass true .fp3 (toBackhaul s n (some a) f) io).2 else late
  | _ => late

/-- A FWD frame at the Handoff Unit (R109). -/
def takeFwd (a : Addr) (sender : Nat) (f : QFrame) (s : State) : State :=
  match s.arriveOf a with
  | some (i, _) =>
    match s.stOf a with
    | some (.arriving (some r) _) => countIn i (s.onIo fun io => (placeClass true (radioPort r) f io).2)
    | _ => countIn i ((dropHeld s f).countDrop i)
  | none =>
    match s.departOf a with
    | some (i, c) =>
      match c.st with
      | .await _ _ _ _ _ _ => countIn i (forwardFrame true i s f)
      | .depart false _ _ _ _ _ => forwardFrame true i s f
      | _ => strayFwd a sender f s
    | none => strayFwd a sender f s

/-- A FWD frame dropped at stage 4 of its intake, told to the Handoff Unit (R109). -/
def toldFwdDrop (a : Addr) (s : State) : State :=
  match s.arriveOf a with
  | some (i, _) => countIn i s
  | none =>
    match s.departOf a with
    | some (i, c) =>
      match c.st with
      | .await _ _ _ _ _ _ => countIn i s
      | _ => s
    | none => s

/-- The outcome of a FWD frame told to the Handoff Unit (R116). -/
def toldFwd (m : Mark) (success : Bool) (s : State) : State :=
  match s.hu.slots[m.slot]? with
  | none => s
  | some x =>
    match x.ctx with
    | none => s
    | some c =>
      if x.gen = m.gen ∧ !c.st.isArrive then
        let full : Bool := match c.st with
          | .await _ _ _ _ n _ => 65535 ≤ n
          | .depart _ _ _ n _ _ => 65535 ≤ n
          | .arrive _ => false
        let f := if success then next16 s.io else id
        let s1 := s.modifyCtx m.slot fun k => { k with st := k.st.onCounts f (· - 1) }
        let s2 := if success then
            (s1.countHu fun k => { k with fwdSent := satInc k.fwdSent }).onIo fun io => if full then io.bumpFree else io
          else s1
        tryRelease m.slot s2
      else s

/-! ## RELEASE (R110) -/

/-- Hints at the front of a list, the others behind them without their keys, at most 8 (R120, R121). Two hints of one key
inside the front list both stay (DESIGN CHOICE, log 55). -/
def mergeHints (front rest : List Hint) : List Hint := (front ++ rest.filter fun h => !front.contains h).take 8

/-- What a context stores of a RELEASE (R110): the known flag is cleared when the profile differs from the entry's. -/
def takenOf (s : State) (r : Release) : Taken :=
  let same : Bool := match s.entry r.station with
    | some e => e.profile = r.profile
    | none => false
  { expected := r.forwarded, carried := { r.allow with known := r.allow.known && same } }

/-- A RELEASE stored by a context that has none yet. -/
def storeRelease (i : Nat) (f : Context → Context) (r : Release) (s : State) : State :=
  let t := takenOf s r
  ((s.modifyCtx i f).onWaiting i fun w => { w with taken := some t }).countHu fun k =>
    { k with releasesReceived := satInc k.releasesReceived }

/-- A RELEASE at the Handoff Unit (R110, R121). -/
def takeRelease (r : Release) (s : State) : State :=
  let second := s.countHu fun k => { k with secondRelease := satInc k.secondRelease }
  let late := s.countHu fun k => { k with lateRelease := satInc k.lateRelease }
  match s.arriveOf r.station with
  | some (i, c) =>
    match c.st with
    | .arrive w =>
      if w.taken.isSome then second
      else testArrival i (storeRelease i (fun k => { k with peer := r.sender, hints := r.hints }) r s)
    | _ => late
  | none =>
    match s.departOf r.station with
    | some (i, c) =>
      match c.st with
      | .await w _ _ _ _ _ =>
        if w.taken.isSome then second
        else testAwait i (storeRelease i (fun k => { k with hints := mergeHints r.hints k.hints }) r s)
      | _ => late
    | none => late

/-! ## Departures and conversions (R113 to R123) -/

/-- A DEPART context ended early (R123): its held frames go first, its RELEASE next, and the slot is freed. -/
def endEarly (i : Nat) (c : Context) (s : State) : State :=
  let ready : Option Allowance × State := match c.st with
    | .await w p ch t n o =>
      let f := formSnapshot c w p ch s
      let x := f.2.modifyCtx i fun k => { k with st := .depart false t s.hu.params.linger n o f.1 }
      (f.1, w.hold.foldl (forwardFrame false i) x)
    | .depart _ _ _ _ _ sn => (sn, s)
    | .arrive _ => (none, s)
  let s1 := ready.2
  let counts : Nat × Nat := match s1.hu.stAt i with
    | some (.depart _ _ _ n o _) => (n, o)
    | _ => (0, 0)
  let total := sum16 s1.io counts.1 counts.2
  let s2 := if 65535 < counts.1 + counts.2 then s1.onIo Io.bumpFree else s1
  ((sendRelease c.station c.peer total ready.1 c.hints s2).2.freeCtx i).countHu fun k =>
    { k with earlyReleases := satInc k.earlyReleases }

/-- Ends the DEPART context a node holds for a station, if there is one (R115, R120, R123). -/
def endDepart (a : Addr) (s : State) : State :=
  match s.departOf a with
  | some (i, c) => endEarly i c s
  | none => s

/-- CONTEXT_TABLE_FULL raised, CONTEXT_FULL counted (R107, R119). -/
def contextFull (a : Addr) (r : Role) (s : State) : State :=
  (s.countHu fun k => { k with contextFull := satInc k.contextFull }).onIo (raise (.contextTableFull a r))

/-- A CLAIM for a station SERVING or DETACHED here (R115, R119). Without a slot the RELEASE and what follows from the
entry's change come before CONTEXT_TABLE_FULL (DESIGN CHOICE, log 54). -/
def depart (c : Claim) (e : Station) (s : State) : State :=
  let s1 := endDepart c.station s
  let hints := s1.hintsOf c.station
  match s1.hu.freeSlot with
  | some i =>
    let ctx : Context :=
      { station := c.station, peer := c.claimant, hints,
        st := .depart false c.cutover s.hu.params.linger 0 0 e.st.allowance }
    let s2 := changeState c.station (.away (some c.claimant) none) (s1.placeCtx i ctx)
    let s3 := s2.countHu fun k => { k with departures := satInc k.departures }
    if (s3.arriveOf c.station).isSome then enterFlushing i s3 else s3
  | none =>
    let s2 := (sendRelease c.station c.claimant 0 e.st.allowance hints s1).2
    contextFull c.station .depart (changeState c.station (.away (some c.claimant) none) s2)

/-- A CLAIM for a station ARRIVING here: its ARRIVE context is converted (R120). -/
def convert (c : Claim) (charge : Nat) (s : State) : State :=
  let s1 := endDepart c.station s
  let hints := s1.hintsOf c.station
  let s2 := match s1.arriveOf c.station with
    | some (i, _) =>
      s1.modifyCtx i fun k =>
        match k.st with
        | .arrive w =>
          { k with
            peer := c.claimant
            hints := mergeHints k.hints hints
            st := .await w k.peer charge c.cutover 0 0 }
        | _ => k
    | none => s1
  (changeState c.station (.away (some c.claimant) none) s2).countHu fun k =>
    { k with conversions := satInc k.conversions }

/-- The server a claim's previous-server field gives an entry with none (R113). -/
def claimServer (own : Nat) (prev : Nat) : Option Nat := if prev ≠ 0 ∧ prev ≠ own then some prev else none

/-- The pending server of an AWAY entry becomes its server when MT has reached the cutover (R114). -/
def StState.switchServer (now : Time) : StState → StState
  | .away n (some (p, t)) => if reached now t then .away (some p) none else .away n (some (p, t))
  | x => x

def switchServer (a : Addr) (s : State) : State := s.modifyEntry a fun e => { e with st := e.st.switchServer s.mt }

/-- A new AWAY entry, with the Classifier's notice (R89, R57). -/
def newAway (i : Nat) (a : Addr) (st : StState) (s : State) : State := flowsEnterAway a (putEntry i a st s)

/-- A CLAIM at the Station Unit and the Handoff Unit (R113). -/
def takeClaim (c : Claim) (s : State) : State :=
  let ignored := s.countHu fun k => { k with claimsIgnored := satInc k.claimsIgnored }
  let received := s.countHu fun k => { k with claimsReceived := satInc k.claimsReceived }
  if c.claimant = s.node then ignored
  else
    match s.entry c.station with
    | none =>
      match lowestEmpty s.su.table with
      | some i =>
        switchServer c.station
          (newAway i c.station (.away (claimServer s.node c.prev) (some (c.claimant, c.cutover))) received)
      | none => ignored
    | some e =>
      match e.st with
      | .away n _ =>
        let n' := match n with
          | some x => some x
          | none => claimServer s.node c.prev
        switchServer c.station
          (received.modifyEntry c.station fun x => { x with st := .away n' (some (c.claimant, c.cutover)) })
      | .serving _ _ => depart c e received
      | .detached _ => depart c e received
      | .arriving _ charge => convert c charge received

/-! ## Arrival (R105 to R107) -/

/-- The previous server of an entry (R106). -/
def StState.previous : StState → Nat
  | .away _ (some (n, _)) => n
  | .away (some n) none => n
  | _ => 0

/-- A DETACHED station without a DEPART context resumes (R105). -/
def resume (a : Addr) (radio : Radio) (allow : Allowance) (s : State) : State :=
  let s1 := changeState a (.serving radio allow) s
  sendClaim a s.node (claimCutover s) (s1.countHu fun k => { k with resumes := satInc k.resumes })

/-- An ARRIVE context created in a slot (R106). -/
def createArrive (i : Nat) (radio : Radio) (e : Station) (s : State) : State :=
  let prev := e.st.previous
  let ctx : Context :=
    { station := e.addr, peer := prev,
      st := .arrive { own := e.st.allowance, deadline := s.tb.lt + BitVec.ofNat 48 s.hu.params.tctx } }
  let s1 := changeState e.addr (.arriving (some radio) 0) (s.placeCtx i ctx)
  let s2 := match s1.departOf e.addr with
    | some (j, d) => (match d.st with
        | .depart false _ _ _ _ _ => enterFlushing j s1
        | _ => s1)
    | none => s1
  sendClaim e.addr prev (claimCutover s) s2

/-- An arrival with no context slot free (R107). A DEPART context that enters FLUSHING here builds its RELEASE after it
gave up its snapshot (log 23). CONTEXT_TABLE_FULL, with its NOTICE, comes after the CLAIM is placed (DESIGN CHOICE,
log 54). -/
def arriveWithout (radio : Radio) (e : Station) (s : State) : State :=
  let prev := e.st.previous
  let dep := s.departOf e.addr
  let s1 := changeState e.addr (.serving radio unformed) s
  let s2 := match dep with
    | some (j, _) => s1.modifyCtx j fun c => { c with st := c.st.flush }
    | none => s1
  let f := formAllowance e.profile (dep.bind fun d => d.2.st.snapshot) 0 (prev = 0) s2
  let s3 := dropSnapshot e.addr
    (computeState e.addr (f.2.modifyEntry e.addr fun x => { x with st := x.st.withAllowance f.1 }))
  let s4 := match dep with
    | some (j, d) => (match d.st with
        | .depart false _ _ _ _ _ => tryRelease j s3
        | _ => s3)
    | none => s3
  contextFull e.addr .arrive (sendClaim e.addr prev (claimCutover s) s4)

/-- An association handed to the Handoff Unit (R105 to R107). -/
def arrive (a : Addr) (radio : Radio) (s : State) : State :=
  match s.entry a with
  | none => s
  | some e =>
    match e.st, s.departOf a with
    | .detached allow, none => resume a radio allow s
    | _, _ =>
      match s.hu.freeSlot with
      | some i => createArrive i radio e s
      | none => arriveWithout radio e s

/-! ## Times observed -/

/-- The end of FORWARDING by time (R117). -/
def endLinger (i : Nat) (s : State) : State :=
  match s.hu.ctxAt i with
  | some c =>
    match c.st with
    | .depart false t l _ _ _ => if lingerOver s t l then enterFlushing i s else s
    | _ => s
  | none => s

/-- At a cycle start every RELEASE still due is built again (R118), in slot order (DESIGN CHOICE, log 40). -/
def retryReleases (s : State) : State := (List.range Config.contextCount).foldl (fun x i => tryRelease i x) s

/-- RESTART of the Handoff Unit (R126): the generations stay (R103). -/
def HandoffUnit.restart (h : HandoffUnit) : HandoffUnit :=
  { h with slots := h.slots.map fun x => { x with ctx := none }, counters := {} }

/-! ## Requests of the Handoff Unit -/

/-- The state of a context numbered in the order of R103's table. -/
def ctxStateCode : CtxState → Nat
  | .arrive w => if w.taken.isNone then 1 else 2
  | .depart false _ _ _ _ _ => 3
  | .depart true _ _ _ _ _ => 4
  | .await _ _ _ _ _ _ => 5

/-- A hold queue in a READ result: frames and cells (R125). -/
def holdBytes (q : List QFrame) : List Byte := be 2 q.length ++ be 2 (queueCells q)

/-- A context's fields as READ ENTRY returns them, in the order of R103's table (R125). -/
def contextBytes (c : Context) : List Byte :=
  be 1 (roleCode (if c.st.isArrive then .arrive else .depart)) ++ be 1 (ctxStateCode c.st) ++ be 6 c.station.toNat ++
    be 1 c.peer ++
    match c.st with
    | .arrive w =>
      holdBytes w.hold ++ be 2 w.received ++
        (match w.taken with
         | some t => be 2 t.expected ++ allowanceBytes t.carried
         | none => []) ++
        optBytes allowanceBytes w.own ++ listBytes hintBytes c.hints ++ be 2 c.drops ++ beTime w.deadline
    | .await w p ch t n o =>
      be 1 p ++ beTime t ++ holdBytes w.hold ++ be 2 w.received ++
        optBytes (fun (k : Taken) => be 2 k.expected ++ allowanceBytes k.carried) w.taken ++
        optBytes allowanceBytes w.own ++ be 3 ch ++ be 2 n ++ be 2 o ++ listBytes hintBytes c.hints ++ be 2 c.drops ++
        beTime w.deadline
    | .depart _ t _ n o sn =>
      beTime t ++ be 2 n ++ be 2 o ++ optBytes allowanceBytes sn ++ listBytes hintBytes c.hints ++ be 2 c.drops

/-- READ ENTRY on the context table (R125). -/
def readContext (slot : Nat) (s : State) : Answer :=
  match s.hu.ctxAt slot with
  | some c => { state := s, status := .ok, records := [contextBytes c] }
  | none => refuse .notFound s

/-- SET HANDOFF PARAMETERS (R104). -/
def writeHandoffParams (f : HandoffFields) (p : HandoffParams) : HandoffParams where
  claimDelay := (f.claimDelay.map (clamp 1 16)).getD p.claimDelay
  linger := (f.linger.map (clamp 1 16)).getD p.linger
  tctx := (f.tctx.map (clamp 10000 2000000)).getD p.tctx

/-- The arrival of a frame with a CLAIM for this node (R36, R113). -/
def execClaimReceived (c : Claim) (s : State) : Host.Outcome State Fault Refusal :=
  .next (takeManaged .fp3 .station (meshLen + (stationBytes (.claim c)).length) (takeClaim c) s)

/-- The arrival of a frame with a RELEASE for this node (R36, R110). -/
def execReleaseReceived (r : Release) (s : State) : Host.Outcome State Fault Refusal :=
  .next (takeManaged .fp3 .station (meshLen + (stationBytes (.release r)).length) (takeRelease r) s)

/-- MT observed at a slot of the station table (R114). -/
def execPendingCutoverReached (slot : Nat) (s : State) : Host.Outcome State Fault Refusal :=
  .next (match s.su.table[slot]?.join with
    | some e => switchServer e.addr s
    | none => s)

/-- MT observed at a context slot (R117). -/
def execLingerEnd (slot : Nat) (s : State) : Host.Outcome State Fault Refusal := .next (endLinger slot s)

/-- LT observed at a context slot with an ARRIVE context (R112). -/
def execWaitDeadline (slot : Nat) (s : State) : Host.Outcome State Fault Refusal := .next (endArrival slot s)

/-- LT observed at a context slot in AWAIT_PREDECESSOR (R121). -/
def execPredecessorDeadline (slot : Nat) (s : State) : Host.Outcome State Fault Refusal := .next (endPredecessor slot s)

def execReadEntryContext (h : ReqHead) (slot : Nat) (s : State) : Host.Outcome State Fault Refusal :=
  .next (request h 4 (readContext slot) s)

/-- Refused with MALFORMED whatever the slot (R125). -/
def execWriteEntryContext (h : ReqHead) (_slot : Nat) (s : State) : Host.Outcome State Fault Refusal :=
  .next (request h 5 (refuse .malformed) s)

/-- Refused with MALFORMED whatever the slot (R125). -/
def execClearEntryContext (h : ReqHead) (_slot : Nat) (s : State) : Host.Outcome State Fault Refusal :=
  .next (request h 6 (refuse .malformed) s)

def execSetHandoffParameters (h : ReqHead) (f : HandoffFields) (s : State) : Host.Outcome State Fault Refusal :=
  .next (request h 29 (fun x => ok (x.onHu fun u => { u with params := writeHandoffParams f u.params })) s)

end Sys2Proof.Machine
end

