-- ==== Sys2Proof/Machine/Access.lean ====
section
/-! DEFINITION. The Schedule Engine's events and requests (chapter 7): minute events, commits, overrides, bonuses, and
the three tables. -/

namespace Sys2Proof.Machine

/-! ## Commits (R132) -/

/-- Entries whose address has a different profile take it; their flows are marked for re-match. -/
def refreshProfiles (s : State) : State :=
  (addrsWhere (fun e => s.se.active.member e.addr ≠ e.profile) s.su).foldl
    (fun x a => markRematch (fun f => f.key.station = a)
      (x.modifyEntry a fun e => { e with profile := x.se.active.member a })) s

/-- A schedule commit takes effect (R132). -/
def takeSchedCommit (m : SchedMethod) (s : State) : State :=
  let s1 := s.onSe fun e => { e with active := e.staged, pending := none }
  computeStates (fun _ => true) (refreshProfiles (s1.onIo (raise (.tablesCommitted m s.se.minute))))

/-! ## Minute events (R134, R135) -/

/-- The kinds of minute event (R134). -/
inductive MinuteKind where
  | normal | start | jump
  deriving DecidableEq, Repr

def minuteKind (old : Option Nat) (new : Nat) : MinuteKind :=
  match old with
  | none => .start
  | some o => if new = o + 1 ∨ (o = 10079 ∧ new = 0) then .normal else .jump

/-- Whether a jump is forward (R134). -/
def forwardJump (old new : Nat) : Bool := (new + 10080 - old) % 10080 < 5040

/-- Whether a minute event is a day boundary (R134). -/
def dayBoundary (old : Option Nat) (new : Nat) : Bool :=
  match old, minuteKind old new with
  | _, .normal => new % 1440 = 0
  | some o, .jump => forwardJump o new && dayOf o ≠ dayOf new
  | _, _ => false

/-- Whether the ended minute is charged to an entry (R141). -/
def chargeable (threshold : Nat) (e : Station) : Bool :=
  e.eff = some .metered && threshold ≤ e.activity &&
    match e.st with
    | .serving _ a => a.known
    | .arriving _ _ => true
    | _ => false

/-- A minute charged (R141). -/
def StState.charge : StState → StState
  | .serving r a => .serving r { a with remaining := a.remaining - 60 }
  | .arriving r c => .arriving r (min (c + 60) 86400)
  | x => x

/-- The number of entries that satisfy a condition. -/
def countEntries (p : Station → Bool) (u : StationUnit) : Nat := (addrsWhere p u).length

/-- Changes the entries that satisfy a condition. -/
def StationUnit.mapWhere (p : Station → Bool) (f : Station → Station) (u : StationUnit) : StationUnit :=
  { u with table := u.table.map fun o => o.map fun e => if p e then f e else e }

/-- Step 1 of R135: the ended minute is charged (R141). -/
def chargeMinute (s : State) : State :=
  let p := chargeable s.se.threshold
  (s.onSu (StationUnit.mapWhere p fun e => { e with st := e.st.charge })).countSe fun k =>
    { k with minutesCharged := satAdd k.minutesCharged (countEntries p s.su) }

/-- Step 2 of R135: activity bytes cleared. -/
def clearActivity (s : State) : State := s.onSu (StationUnit.mapWhere (fun _ => true) fun e => { e with activity := 0 })

/-- Whether an entry is refilled: at a day boundary if it holds an allowance, at a calendar start if that is not known
or of another day (R142). -/
def refillable (start : Bool) (today : Nat) (e : Station) : Bool :=
  match e.st.allowance with
  | some a => !start || !a.known || a.day ≠ today
  | none => false

/-- Pending charges cleared in an entry. -/
def StState.clearCharge : StState → StState
  | .arriving r _ => .arriving r 0
  | x => x

/-- Pending charges cleared in a context. -/
def CtxState.clearCharge : CtxState → CtxState
  | .await w p _ t n o => .await w p 0 t n o
  | x => x

/-- The allowance a refill gives an entry (R142). -/
def fullAllowance (se : ScheduleEngine) (e : Station) (today : Nat) : Allowance :=
  { remaining := (se.active.profile e.profile).dailySeconds today, day := today, known := true }

/-- Step 4 of R135: the refill (R142). -/
def refill (start : Bool) (today : Nat) (s : State) : State :=
  let p := refillable start today
  let s1 := s.onSu (StationUnit.mapWhere p fun e => { e with st := e.st.withAllowance (fullAllowance s.se e today) })
  let s2 := s1.onSu (StationUnit.mapWhere (fun _ => true) fun e => { e with st := e.st.clearCharge })
  (s2.onHu fun h =>
    { h with slots := h.slots.map fun x => { x with ctx := x.ctx.map fun c => { c with st := c.st.clearCharge } } }).countSe
    fun k => { k with refills := satAdd k.refills (countEntries p s.su) }

/-- The overrides of a profile written. -/
def ScheduleEngine.setOverrides (id : Nat) (o : Overrides) (e : ScheduleEngine) : ScheduleEngine :=
  { e with overrides := e.overrides.set (id - 1) o }

/-- An override of one kind. -/
def Overrides.get (o : Overrides) : OverrideKind → Option Override
  | .pause => o.pause
  | .grant => o.grant

/-- An override of one kind cleared. -/
def Overrides.clear (o : Overrides) : OverrideKind → Overrides
  | .pause => { o with pause := none }
  | .grant => { o with grant := none }

/-- One UNTIL_EDGE override judged (R145). -/
def judgeOverride (id : Nat) (k : OverrideKind) (s : State) : State :=
  match (s.se.overridesOf id).get k with
  | some o =>
    if o.scope = .untilEdge ∧ s.se.base id s.se.minute ≠ o.base then
      (s.onSe fun e => e.setOverrides id ((e.overridesOf id).clear k)).onIo (raise (.overrideEnded id k))
    else s
  | none => s

/-- Step 5 of R135 (R145). The profiles are judged in ascending order of their ids (DESIGN CHOICE, log 41). -/
def judgeOverrides (s : State) : State :=
  (List.range Config.profileCount).foldl
    (fun x i => judgeOverride (i + 1) .grant (judgeOverride (i + 1) .pause x)) s

/-- Step 3 of R135: a pending commit whose method names this event. -/
def commitAtMinute (day : Bool) (s : State) : State :=
  match s.se.pending with
  | some .nextMinute => takeSchedCommit .nextMinute s
  | some .nextDay => if day then takeSchedCommit .nextDay s else s
  | _ => s

/-- A minute event to a new minute (R135). -/
def minuteEvent (new : Nat) (s : State) : State :=
  let old := s.se.minute
  let kind := minuteKind old new
  let day := dayBoundary old new
  let s0 := (s.onSe fun e => { e with minute := some new }).countSe fun k =>
    { k with
      minuteEvents := satInc k.minuteEvents
      jumps := if kind = .jump then satInc k.jumps else k.jumps }
  let s1 := if kind = .normal then chargeMinute s0 else s0
  let s3 := commitAtMinute day (clearActivity s1)
  let s4 := if day || kind = .start then refill (kind = .start) (dayOf new) s3 else s3
  let s6 := computeStates (fun _ => true) (judgeOverrides s4)
  if day then purge s6 else s6

/-- The minute observed: an event when it differs from the one held (R134). -/
def observeMinute (s : State) : State :=
  match s.tb.cal.minute? s.se.ts with
  | some m => if s.se.minute = some m then s else minuteEvent m s
  | none => s

/-! ## Overrides and bonuses (R144, R146) -/

/-- A profile's overrides replaced by a request; when they change, the event and the states follow (R144). The event
comes before the STATE_CHANGED of the states (DESIGN CHOICE, log 54). -/
def changeOverrides (id : Nat) (o : Overrides) (k : OverrideKind) (scope : OverrideScope) (s : State) : State :=
  if s.se.overridesOf id = o then s
  else
    computeStates (fun e => e.profile = id)
      ((s.onSe (ScheduleEngine.setOverrides id o)).onIo (raise (.overrideChanged id k scope)))

/-- A kind set, clearing the other (R144). -/
def setOverrideTo (id : Nat) (k : OverrideKind) (scope : OverrideScope) (s : State) : State :=
  let v : Override := { scope, base := s.se.base id s.se.minute }
  changeOverrides id (match k with
    | .pause => { pause := some v }
    | .grant => { grant := some v }) k scope s

/-- A kind cleared. The event's scope is that of the override removed. -/
def clearOverrideOf (id : Nat) (k : OverrideKind) (s : State) : State :=
  let o := s.se.overridesOf id
  match o.get k with
  | some v => changeOverrides id (o.clear k) k v.scope s
  | none => s

def profileId (id : Nat) : Bool := 1 ≤ id && id ≤ 31

/-- SET OVERRIDE (R144). The profile is tested (NOT_FOUND) before the kind and the scope (MALFORMED) (DESIGN CHOICE,
log 53). -/
def setOverride (id kind scope : Nat) (s : State) : Answer :=
  if !profileId id then refuse .notFound s
  else
    match overrideKindOf kind, scopeOf scope with
    | some k, some c => ok (setOverrideTo id k c s)
    | _, _ => refuse .malformed s

/-- CLEAR OVERRIDE (R144). The profile is tested (NOT_FOUND) before the kind (MALFORMED) (DESIGN CHOICE, log 53). -/
def clearOverride (id kind : Nat) (s : State) : Answer :=
  if !profileId id then refuse .notFound s
  else
    match overrideKindOf kind with
    | some k => ok (clearOverrideOf id k s)
    | none => refuse .malformed s

/-- TOGGLE OVERRIDE (R144). The profile is tested (NOT_FOUND) before the kind and the scope (MALFORMED) (DESIGN CHOICE,
log 53). -/
def toggleOverride (id kind scope : Nat) (s : State) : Answer :=
  if !profileId id then refuse .notFound s
  else
    match overrideKindOf kind, scopeOf scope with
    | some .pause, some c =>
      if (s.se.overridesOf id).pause.isSome then ok (clearOverrideOf id .pause s) else ok (setOverrideTo id .pause c s)
    | _, _ => refuse .malformed s

/-- Whether a bonus reaches an entry (R146). -/
def bonusFor (id : Nat) (e : Station) : Bool :=
  e.profile = id && match e.st.allowance with
    | some a => a.known
    | none => false

/-- Seconds added to the allowance fields of an entry (R146). -/
def StState.addSeconds (n : Nat) (st : StState) : StState :=
  match st.allowance with
  | some a => st.withAllowance { a with remaining := min (a.remaining + n) 86400 }
  | none => st

/-- GRANT BONUS (R146). Every entry the bonus reaches is counted as changed, one already at 86,400 seconds too (DESIGN
CHOICE, log 41). -/
def grantBonus (id minutes : Nat) (s : State) : Answer :=
  if !profileId id then refuse .notFound s
  else
    let n := clamp 1 600 minutes
    let s1 := s.onSu (StationUnit.mapWhere (bonusFor id) fun e => { e with st := e.st.addSeconds (n * 60) })
    { state := computeStates (bonusFor id) s1, status := .ok, records := [be 2 (countEntries (bonusFor id) s.su)] }

/-! ## Tables (R127 to R131) -/

/-- A copy of the tables. -/
def ScheduleEngine.copy (e : ScheduleEngine) (active : Bool) : SchedTables := if active then e.active else e.staged

/-- Changes the staged tables. -/
def State.onStaged (f : SchedTables → SchedTables) (s : State) : State := s.onSe fun e => { e with staged := f e.staged }

def memberBytes (m : Member) : List Byte := flagByte m.inUse ++ be 6 m.addr.toNat ++ be 1 m.profile

def readMember (active : Bool) (index : Nat) (s : State) : Answer :=
  match (s.se.copy active).members[index]? with
  | some m => { state := s, status := .ok, records := [memberBytes m] }
  | none => refuse .notFound s

/-- WRITE ENTRY on the membership table (R127). The index is tested first, then the fields, then the pending commit
(DESIGN CHOICE, log 45). -/
def writeMember (active : Bool) (index : Nat) (a : Addr) (profile : Nat) (s : State) : Answer :=
  if active then refuse .malformed s
  else if Config.memberCount ≤ index then refuse .notFound s
  else if !profileId profile || isGroup a then refuse .malformed s
  else if s.se.pending.isSome then refuse .stagePending s
  else ok (s.onStaged fun t => { t with members := t.members.set index { inUse := true, addr := a, profile } })

/-- CLEAR ENTRY on the membership table (R127). The number is tested before the pending commit (DESIGN CHOICE, log 45). -/
def clearMember (active : Bool) (index : Nat) (s : State) : Answer :=
  if active then refuse .malformed s
  else if Config.memberCount ≤ index then refuse .notFound s
  else if s.se.pending.isSome then refuse .stagePending s
  else ok (s.onStaged fun t => { t with members := t.members.modify index fun m => { m with inUse := false } })

def actionBytes (a : Action) : List Byte :=
  be 1 (actionCode a) ++ be 1 (match a with
    | .demote t => t
    | _ => 0)

def overrideBytes (o : Override) : List Byte := be 1 (scopeCode o.scope) ++ be 1 (effCode o.base)

def overridesBytes (o : Overrides) : List Byte := optBytes overrideBytes o.pause ++ optBytes overrideBytes o.grant

def profileBytes (p : Profile) : List Byte :=
  be 1 (effCode p.default) ++ (p.daily.map (be 2)).flatten ++ be 2 p.fallback ++ be 1 (effCode p.exhausted) ++
    actionBytes p.matrix.c0 ++ actionBytes p.matrix.c1 ++ actionBytes p.matrix.c2 ++ actionBytes p.matrix.c3

def readProfile (active : Bool) (id : Nat) (s : State) : Answer :=
  if !profileId id then refuse .notFound s
  else
    { state := s, status := .ok,
      records := [profileBytes ((s.se.copy active).profile id) ++
        if active then overridesBytes (s.se.overridesOf id) else []] }

/-- A LIMIT action as a write carries it: none when the code is unlisted (R128). -/
def actionOf (a : ActionFields) : Option Action :=
  match a.action with
  | 1 => some .pass
  | 2 => some (.demote (min a.target 3))
  | 3 => some .drop
  | _ => none

/-- A matrix as a write carries it. -/
def matrixOf (l : List ActionFields) : Option (PerClass Action) :=
  match l.map actionOf with
  | [some a, some b, some c, some d] => some ⟨a, b, c, d⟩
  | _ => none

/-- An optional field of a write read: present and unlisted is malformed. -/
def checked {α β : Type} (f : α → Option β) (old : β) : Option α → Option β
  | none => some old
  | some a => f a

def defaultOf (n : Nat) : Option EffState := if n = 1 ∨ n = 2 then effOf n else none

def exhaustedOf (n : Nat) : Option EffState := if n = 3 ∨ n = 4 then effOf n else none

/-- A staged profile with the fields of a write (R128): none when one of them is malformed. -/
def writtenProfile (f : ProfileFields) (p : Profile) : Option Profile :=
  match checked defaultOf p.default f.default, checked exhaustedOf p.exhausted f.exhausted,
      checked matrixOf p.matrix f.matrix with
  | some d, some x, some m =>
    some {
      default := d
      daily := (f.daily.map fun l => l.map (clamp 0 1440)).getD p.daily
      fallback := (f.fallback.map (clamp 0 1440)).getD p.fallback
      exhausted := x
      matrix := m }
  | _, _, _ => none

/-- WRITE ENTRY on the profiles (R128). The id is tested first, then the pending commit, then the fields (DESIGN CHOICE,
log 45). -/
def writeProfile (active : Bool) (id : Nat) (f : ProfileFields) (s : State) : Answer :=
  if active then refuse .malformed s
  else if !profileId id then refuse .notFound s
  else if s.se.pending.isSome then refuse .stagePending s
  else
    match writtenProfile f (s.se.staged.profile id) with
    | some p => ok (s.onStaged fun t => { t with profiles := t.profiles.set (id - 1) p })
    | none => refuse .malformed s

/-- CLEAR ENTRY on the profiles (R128). The number is tested before the pending commit (DESIGN CHOICE, log 45). -/
def clearProfile (active : Bool) (id : Nat) (s : State) : Answer :=
  if active then refuse .malformed s
  else if !profileId id then refuse .notFound s
  else if s.se.pending.isSome then refuse .stagePending s
  else ok (s.onStaged fun t => { t with profiles := t.profiles.set (id - 1) {} })

def schedWindowBytes (w : SchedWindow) : List Byte :=
  flagByte w.inUse ++ be 1 w.profile ++ be 2 w.start ++ be 2 w.stop ++ be 1 (schedKindCode w.kind)

def readSchedWindow (active : Bool) (index : Nat) (s : State) : Answer :=
  match (s.se.copy active).windows[index]? with
  | some w => { state := s, status := .ok, records := [schedWindowBytes w] }
  | none => refuse .notFound s

/-- The entry a schedule window write makes (R129). -/
def schedWindowOf (f : SchedWindowFields) (k : SchedKind) : SchedWindow :=
  let start := clamp 0 10079 f.start
  { inUse := true, profile := f.profile, start, stop := clamp (start + 1) 10080 f.stop, kind := k }

/-- WRITE ENTRY on the schedule windows (R129). The index is tested first, then the pending commit, then the kind and
the profile (DESIGN CHOICE, log 45). -/
def writeSchedWindow (active : Bool) (index : Nat) (f : SchedWindowFields) (s : State) : Answer :=
  if active then refuse .malformed s
  else if Config.schedCount ≤ index then refuse .notFound s
  else if s.se.pending.isSome then refuse .stagePending s
  else
    match schedKindOf f.kind with
    | some k =>
      if 31 < f.profile then refuse .malformed s
      else ok (s.onStaged fun t => { t with windows := t.windows.set index (schedWindowOf f k) })
    | none => refuse .malformed s

/-- CLEAR ENTRY on the schedule windows (R129). The number is tested before the pending commit (DESIGN CHOICE, log 45). -/
def clearSchedWindow (active : Bool) (index : Nat) (s : State) : Answer :=
  if active then refuse .malformed s
  else if Config.schedCount ≤ index then refuse .notFound s
  else if s.se.pending.isSome then refuse .stagePending s
  else ok (s.onStaged fun t => { t with windows := t.windows.modify index fun w => { w with inUse := false } })

/-- COMMIT on the schedule tables (R131). The pending commit is tested first (STAGE_PENDING), then the method (MALFORMED),
then the tables (TABLE_INVALID) (DESIGN CHOICE, log 53). -/
def commitSched (method : Nat) (s : State) : Answer :=
  if s.se.pending.isSome then refuse .stagePending s
  else
    match schedMethodOf method with
    | none => refuse .malformed s
    | some m =>
      match s.se.staged.invalid with
      | some (t, i) => { state := s, status := .tableInvalid, records := [be 1 t ++ be 2 i] }
      | none => ok (if m = .now then takeSchedCommit .now s else s.onSe fun e => { e with pending := some m })

/-- DISCARD on the schedule tables (R131). -/
def discardSched (s : State) : Answer := ok (s.onSe fun e => { e with staged := e.active, pending := none })

/-- READ SCHEDULE STATE (R149). -/
def readSchedState (a : Addr) (s : State) : Answer :=
  match s.entry a with
  | none => refuse .notFound s
  | some e =>
    { state := s, status := .ok,
      records := [be 1 (stCode e.st) ++ be 1 e.profile ++ be 1 (effCode (s.se.base e.profile s.se.minute)) ++
        (match e.eff with
         | some v => be 1 (effCode v)
         | none => []) ++
        overridesBytes (s.se.overridesOf e.profile) ++ stTailBytes e.st] }

/-- RESTART of the Schedule Engine (R150). -/
def ScheduleEngine.restart (e : ScheduleEngine) : ScheduleEngine :=
  { e with staged := e.active, pending := none, counters := {} }

/-! ## Meanings -/

/-- The minute observed (R134, R135). -/
def execMinuteEvent (s : State) : Host.Outcome State Fault Refusal := .next (observeMinute s)

def execReadEntryMembership (h : ReqHead) (active : Bool) (index : Nat) (s : State) :
    Host.Outcome State Fault Refusal :=
  .next (request h 4 (readMember active index) s)

def execWriteEntryMembership (h : ReqHead) (active : Bool) (index : Nat) (addr : Addr) (profile : Nat) (s : State) :
    Host.Outcome State Fault Refusal :=
  .next (request h 5 (writeMember active index addr profile) s)

def execClearEntryMembership (h : ReqHead) (active : Bool) (index : Nat) (s : State) :
    Host.Outcome State Fault Refusal :=
  .next (request h 6 (clearMember active index) s)

def execReadEntryProfile (h : ReqHead) (active : Bool) (id : Nat) (s : State) : Host.Outcome State Fault Refusal :=
  .next (request h 4 (readProfile active id) s)

def execWriteEntryProfile (h : ReqHead) (active : Bool) (id : Nat) (f : ProfileFields) (s : State) :
    Host.Outcome State Fault Refusal :=
  .next (request h 5 (writeProfile active id f) s)

def execClearEntryProfile (h : ReqHead) (active : Bool) (id : Nat) (s : State) : Host.Outcome State Fault Refusal :=
  .next (request h 6 (clearProfile active id) s)

def execReadEntryScheduleWindow (h : ReqHead) (active : Bool) (index : Nat) (s : State) :
    Host.Outcome State Fault Refusal :=
  .next (request h 4 (readSchedWindow active index) s)

def execWriteEntryScheduleWindow (h : ReqHead) (active : Bool) (index : Nat) (f : SchedWindowFields) (s : State) :
    Host.Outcome State Fault Refusal :=
  .next (request h 5 (writeSchedWindow active index f) s)

def execClearEntryScheduleWindow (h : ReqHead) (active : Bool) (index : Nat) (s : State) :
    Host.Outcome State Fault Refusal :=
  .next (request h 6 (clearSchedWindow active index) s)

def execCommitScheduleTables (h : ReqHead) (method : Nat) (s : State) : Host.Outcome State Fault Refusal :=
  .next (request h 7 (commitSched method) s)

def execDiscardScheduleTables (h : ReqHead) (s : State) : Host.Outcome State Fault Refusal :=
  .next (request h 8 discardSched s)

def execSetScheduleParameters (h : ReqHead) (threshold : Nat) (s : State) : Host.Outcome State Fault Refusal :=
  .next (request h 30 (fun x => ok (x.onSe fun e => { e with threshold := clamp 1 1000000 threshold })) s)

def execReadScheduleState (h : ReqHead) (station : Addr) (s : State) : Host.Outcome State Fault Refusal :=
  .next (request h 32 (readSchedState station) s)

def execSetOverride (h : ReqHead) (profile kind scope : Nat) (s : State) : Host.Outcome State Fault Refusal :=
  .next (request h 33 (setOverride profile kind scope) s)

def execClearOverride (h : ReqHead) (profile kind : Nat) (s : State) : Host.Outcome State Fault Refusal :=
  .next (request h 34 (clearOverride profile kind) s)

def execToggleOverride (h : ReqHead) (profile kind scope : Nat) (s : State) : Host.Outcome State Fault Refusal :=
  .next (request h 35 (toggleOverride profile kind scope) s)

def execGrantBonus (h : ReqHead) (profile minutes : Nat) (s : State) : Host.Outcome State Fault Refusal :=
  .next (request h 36 (grantBonus profile minutes) s)

end Sys2Proof.Machine
end

