-- ==== Sys2Proof/Machine/Egress.lean ====
section
/-! DEFINITION. The Egress Service (chapter 4): the window in effect, airtime, the choice and release of frames,
transmit-done, window openings, credits, the window, peer and queue tables, and its requests. -/

namespace Sys2Proof.Machine

/-! ## The window in effect (R76, R77) -/

/-- Whether a window entry is present in a cycle (R76). -/
def Window.present (w : Window) (count : Nat) : Bool := w.inUse && count % 2 ^ w.k = w.c

/-- The end of a window (R77). -/
def Window.stop (w : Window) : Nat := w.start + w.length

def Window.covers (w : Window) (count pos : Nat) : Bool := w.present count && w.start ≤ pos && pos < w.stop

/-- The window in effect (R77). -/
def Egress.inEffect (e : Egress) (tb : TimeBase) : InEffect :=
  match e.active.findIdx? fun w => w.covers tb.count tb.pos with
  | some i => .window i
  | none => .gap

/-- The entry in effect. -/
def Egress.current (e : Egress) (tb : TimeBase) : Option Window :=
  match e.inEffect tb with
  | .window i => e.active[i]?
  | .gap => none

/-- Whether a window allows this node's management queue (R78, R81). -/
def Window.allowsMgmt (w : Window) (node : Nat) : Bool :=
  match w.kind with
  | .beacon => false
  | .owned => w.owner = node
  | .opened => true

/-- Whether a window allows one of this node's class queues (R78, R81). -/
def Window.allowsClass (w : Window) (node k : Nat) : Bool := w.allowsMgmt node && w.mask.get k

/-- Whether a window allows one of this node's queues (R81). -/
def Window.allows (w : Window) (node : Nat) : QueueId → Bool
  | .mgmt => w.allowsMgmt node
  | .cls k => w.allowsClass node k

/-! ## Peers and airtime (R79, R80) -/

/-- The peer entry of a node id. -/
def Egress.peer (e : Egress) (n : Nat) : Peer := if n = 0 then {} else (e.peers[n - 1]?).getD {}

/-- The rate an entry stands for (R79). -/
def Peer.rateOf (p : Peer) : Nat := if p.inUse then p.rate else 100

/-- The link delay an entry stands for (R79). -/
def Peer.delayOf (p : Peer) : Nat := if p.inUse then p.delay else 0

/-- The lowest rate of the entries in use for nodes other than this one, or 100 (R80); `i` is the id of the first. -/
def lowestRate (own : Nat) : Nat → List Peer → Option Nat → Nat
  | _, [], best => best.getD 100
  | i, p :: ps, best =>
    if p.inUse ∧ i ≠ own then
      lowestRate own (i + 1) ps (some (match best with
        | some b => min b p.rate
        | none => p.rate))
    else lowestRate own (i + 1) ps best

/-- The rate for a destination node (R80). -/
def Egress.rateTo (e : Egress) (own dst : Nat) : Nat :=
  if dst = 0 then lowestRate own 1 e.peers none else (e.peer dst).rateOf

/-- Division rounded up. -/
def ceilDiv (a b : Nat) : Nat := (a + b - 1) / b

/-- The airtime of a frame on FP3 (R80). -/
def Egress.airtime (e : Egress) (own : Nat) (f : QFrame) : Nat :=
  e.overhead + ceilDiv (8 * f.sentLen) (e.rateTo own (f.dstNode.getD 0))

/-! ## The choice (R73, R78, R82) -/

/-- What a choice yields. -/
inductive Choice where
  | beacon
  | mgmt
  | cls (k : Nat) (borrowed : Bool)
  deriving DecidableEq, Repr

/-- The fit check (R80): a head's airtime ends by the window's end less the guard. -/
def fitsWindow (io : Io) (tb : TimeBase) (w : Window) (f : QFrame) : Bool :=
  tb.pos + io.es.airtime io.node f + io.es.guardTime ≤ w.stop

/-- Whether a port may send the head of its management queue now. -/
def mayMgmt (p : Port) (tb : TimeBase) (io : Io) (f : QFrame) : Bool :=
  if p = .fp3 then
    !tb.quietNow && match io.es.current tb with
      | some w => w.allowsMgmt io.node && fitsWindow io tb w f
      | none => false
  else true

/-- Whether a port may send the head of a class queue now. -/
def mayClass (p : Port) (tb : TimeBase) (io : Io) (k : Nat) (f : QFrame) : Bool :=
  if p = .fp3 then
    !tb.quietNow && match io.es.current tb with
      | some w => w.allowsClass io.node k && fitsWindow io tb w f
      | none => false
  else true

/-- Whether class `k` has a head the port may send now. -/
def classReady (p : Port) (tb : TimeBase) (io : Io) (k : Nat) : Bool :=
  match ((io.port p).queue.get k).head? with
  | some f => mayClass p tb io k f
  | none => false

/-- Steps 3 and 4 of R73. -/
def chooseClass (p : Port) (tb : TimeBase) (io : Io) : Option Choice :=
  match [0, 1, 2, 3].find? fun k => classReady p tb io k && 0 < (io.port p).credit.get k with
  | some k => some (.cls k false)
  | none =>
    match [0, 1, 2, 3].find? fun k => classReady p tb io k && ((io.port p).inUse.get k).borrow with
    | some k => some (.cls k true)
    | none => none

/-- The next frame of a port (R73). -/
def choose (p : Port) (tb : TimeBase) (io : Io) : Option Choice :=
  if p = .fp3 ∧ io.es.beaconPos.isSome then some .beacon
  else
    match (io.port p).mgmt.head? with
    | some f => if mayMgmt p tb io f then some .mgmt else chooseClass p tb io
    | none => chooseClass p tb io

/-- A credit charged (R74). -/
def charged (c : Int) (bytes : Nat) : Int := max (c - bytes) (-1535)

/-- A frame released by its choice (R74). -/
def release (p : Port) (c : Choice) (io : Io) : Io :=
  match c with
  | .beacon =>
    match io.es.beaconPos with
    | some f => (io.onEs fun e => { e with beaconPos := none }).onPort p fun x => { x with tx := .busy f }
    | none => io
  | .mgmt =>
    match (io.port p).mgmt with
    | f :: rest => io.onPort p fun x => { x with mgmt := rest, tx := .busy f }
    | [] => io
  | .cls k borrowed =>
    match (io.port p).queue.get k with
    | f :: rest =>
      io.onPort p fun x =>
        { x with
          queue := x.queue.set k rest
          credit := x.credit.set k (charged (x.credit.get k) f.sentLen)
          tx := .busy f
          counters := if borrowed then { x.counters with borrowed := satInc x.counters.borrowed } else x.counters }
    | [] => io

/-- A port's choice (R73): made while its slot is free, after an event that may change it and not before. -/
def releaseNext (p : Port) (tb : TimeBase) (io : Io) : Io :=
  if (io.port p).choiceDue ∧ (io.port p).tx = .free then
    let io1 := io.onPort p fun x => { x with choiceDue := false }
    match choose p tb io with
    | some c => release p c io1
    | none => io1
  else io

/-! ## Transmit-done (R75) -/

/-- A failed frame counted and reported (R75). The destination of a frame without a mesh header is a free value
(log 9). -/
def txFailed (p : Port) (f : QFrame) (io : Io) : Io :=
  let io1 := countEs p (fun c => { c with txFail := satInc c.txFail }) io
  let dst := f.dstNode.getD (Config.freeNat io.freeCount % 9)
  let io2 := if f.hdr.isNone then io1.bumpFree else io1
  raise (if p = .fp3 then .backhaulTxFailed p f.kind dst else .bufferTxFailed p f.kind dst) io2

/-- The end of a frame in a transmitter (R75). The cells are freed first, then the end is counted and reported, then the
Handoff Unit is told, then the Time Base: the order of the rule's list. -/
def txEnd (p : Port) (f : QFrame) (success : Bool) (s : State) : State :=
  let s1 := s.onIo fun io =>
    let freed := freeCells f.cells (io.onPort p fun x => { x with tx := .free, choiceDue := true })
    if success then countEs p (fun c => { c with framesOut := satInc c.framesOut }) freed else txFailed p f freed
  let s2 := match f.mark with
    | some m => toldFwd m success s1
    | none => s1
  if f.kind = .beacon ∧ success then
    s2.onTb fun t => { t with counters := { t.counters with beaconsSent := satInc t.counters.beaconsSent } }
  else s2

/-- A transmit-done (R75). -/
def transmitDone (p : Port) (success : Bool) (s : State) : State :=
  match (s.io.port p).tx with
  | .free => s
  | .givenUp _ => s.onIo fun io => io.onPort p fun x => { x with tx := .free, choiceDue := true }
  | .busy f => txEnd p f success s

/-! ## Window openings (R81) -/

/-- A queue of a port. -/
def PortEgress.q (e : PortEgress) : QueueId → List QFrame
  | .mgmt => e.mgmt
  | .cls k => e.queue.get k

def PortEgress.setQ (e : PortEgress) (id : QueueId) (l : List QFrame) : PortEgress :=
  match id with
  | .mgmt => { e with mgmt := l }
  | .cls k => { e with queue := e.queue.set k l }

/-- A head dropped as oversize (R81). -/
def dropOversize (id : QueueId) (index : Nat) (f : QFrame) (rest : List QFrame) (io : Io) : Io :=
  let io1 := freeCells f.cells (io.onPort .fp3 fun e =>
    { e.setQ id rest with counters := { e.counters with oversize := satInc e.counters.oversize } })
  raise (.oversize .fp3 id f.sentLen (f.dstNode.getD 0) index) io1

/-- A head dropped, and the Handoff Unit told of a failure if it is a FWD frame, before the next head is judged (R81). FWD
frames stand in the class queues (R116). -/
def dropHead (id : QueueId) (index : Nat) (f : QFrame) (rest : List QFrame) (s : State) : State :=
  let s1 := s.onIo (dropOversize id index f rest)
  match id, f.mark with
  | .cls _, some m => toldFwd m false s1
  | _, _ => s1

/-- The heads of one queue judged against a window's length one after the other (R81); at most `fuel` heads. -/
def judgeHeads : Nat → QueueId → Nat → Window → State → State
  | 0, _, _, _, s => s
  | fuel + 1, id, index, w, s =>
    match (s.io.port .fp3).q id with
    | [] => s
    | f :: rest =>
      if w.length < s.io.es.airtime s.node f + s.io.es.guardTime then
        judgeHeads fuel id index w (dropHead id index f rest s)
      else s

/-- One queue judged if the window allows it. The fuel covers the queue and what its drops may append to it. -/
def judgeQueue (index : Nat) (w : Window) (s : State) (id : QueueId) : State :=
  if w.allows s.node id then judgeHeads (((s.io.port .fp3).q id).length + 32) id index w s else s

/-- The opening of a window (R81), outside a quiet cycle (R82). The management queue is judged first, then the classes in
order (DESIGN CHOICE, log 38). -/
def judgeOpening (index : Nat) (w : Window) (s : State) : State :=
  if s.tb.quietNow then s else [QueueId.mgmt, .cls 0, .cls 1, .cls 2, .cls 3].foldl (judgeQueue index w) s

/-- The window in effect observed (R77): a change to a window is its opening. -/
def observeWindow (s : State) : State :=
  let now := s.io.es.inEffect s.tb
  if s.io.es.seen = some now then s
  else
    let s1 := s.onIo fun io =>
      (io.onEs fun e => { e with seen := some now }).onPort .fp3 fun x => { x with choiceDue := true }
    match now with
    | .window i =>
      match s.io.es.active[i]? with
      | some w => judgeOpening i w s1
      | none => s1
    | .gap => s1

/-! ## The beacon position (R70) -/

/-- A beacon placed: always taken; an unsent one is replaced and freed. Whether one was replaced. -/
def placeBeacon (f : QFrame) (io : Io) : Bool × Io :=
  let put (x : Io) : Io :=
    (x.onEs fun e => { e with beaconPos := some f }).onPort .fp3 fun e => { e with choiceDue := true }
  match io.es.beaconPos with
  | some old => (true, put (freeCells old.cells io))
  | none => (false, put io)

/-- The unsent beacon discarded with its cells at an exit from ROOT: a node emits beacons only in ROOT (R14, log 35). -/
def dropBeacon (io : Io) : Io :=
  match io.es.beaconPos with
  | some f => freeCells f.cells (io.onEs fun e => { e with beaconPos := none })
  | none => io

/-! ## Cycle starts (R72) and commits (R83 to R85) -/

/-- Parameters put into use and credits reloaded at one port (R72). -/
def PortEgress.reload (e : PortEgress) : PortEgress :=
  let one (k : Nat) : Int :=
    min (e.credit.get k + ((e.written.get k).quantum : Int)) ((e.written.get k).cap : Int)
  { e with inUse := e.written, credit := ⟨one 0, one 1, one 2, one 3⟩, choiceDue := true }

/-- A window table commit takes effect (R85). The window in effect is to be found again. -/
def takeWindowCommit (m : WindowMethod) (mt : Time) (io : Io) : Io :=
  raise (.windowCommitted m mt)
    ((io.onEs fun e => { e with active := e.staged, pending := none, seen := none }).onPort .fp3 fun x =>
      { x with choiceDue := true })

/-- Whether a pending commit takes effect at a cycle start (R85). -/
def WindowMethod.due (m : WindowMethod) (count : Nat) (quiet : Bool) : Bool :=
  match m with
  | .now => false
  | .cycle => true
  | .round => count = 0
  | .quiet => quiet

/-- A cycle start at the Egress Service (R72, R77, R85). -/
def egressCycle (count : Nat) (mt : Time) (quiet : Bool) (io : Io) : Io :=
  let io1 := io.onEs fun e => { e with ports := e.ports.map PortEgress.reload, seen := none }
  match io1.es.pending with
  | some m => if m.due count quiet then takeWindowCommit m mt io1 else io1
  | none => io1

/-- Checks 2 to 4 of R83 for the entries from index `i` on, where the previous in-use entry ends at `from_`. -/
def badBackhaul (cycle : Nat) : Nat → Nat → List Window → Option Nat
  | _, _, [] => none
  | i, from_, w :: ws =>
    if w.inUse then
      if (i ≠ 0 ∧ w.kind = .beacon) ∨ cycle < w.stop ∨ w.start < from_ then some i
      else badBackhaul cycle (i + 1) w.stop ws
    else badBackhaul cycle (i + 1) from_ ws

/-- The offending index of a window table (R83). -/
def invalidWindows (cycle : Nat) (ws : List Window) : Option Nat :=
  match ws with
  | [] => some 0
  | w :: _ =>
    if w.inUse ∧ w.kind = .beacon ∧ w.start = 0 ∧ w.k = 0 then badBackhaul cycle 0 0 ws else some 0

/-! ## RESTART (R88) -/

def PortEgress.restart (e : PortEgress) : PortEgress where
  limit := e.limit
  written := e.written
  inUse := e.written
  tx := match e.tx with
    | .free => .free
    | .busy f => .givenUp f.kind
    | .givenUp k => .givenUp k

def Egress.restart (e : Egress) : Egress :=
  { e with ports := e.ports.map PortEgress.restart, beaconPos := none, staged := e.active, pending := none }

/-! ## Requests of the Egress Service -/

/-- A copy of the window table. -/
def Egress.copy (e : Egress) (active : Bool) : List Window := if active then e.active else e.staged

def maskByte (m : PerClass Bool) : Nat := m.c0.toNat + 2 * m.c1.toNat + 4 * m.c2.toNat + 8 * m.c3.toNat

def maskOf (n : Nat) : PerClass Bool := ⟨n.testBit 0, n.testBit 1, n.testBit 2, n.testBit 3⟩

def windowBytes (w : Window) : List Byte :=
  flagByte w.inUse ++ be 2 w.start ++ be 2 w.length ++ be 1 (windowKindCode w.kind) ++
    (if w.kind = .owned then be 1 w.owner else []) ++ be 1 (maskByte w.mask) ++ be 1 w.k ++ be 1 w.c

/-- READ ENTRY on the window table (R76). -/
def readWindow (active : Bool) (index : Nat) (s : State) : Answer :=
  match (s.io.es.copy active)[index]? with
  | some w => { state := s, status := .ok, records := [windowBytes w] }
  | none => refuse .notFound s

/-- The entry a window write makes, clamped against the current cycle (R76). -/
def windowOf (cycle : Nat) (f : WindowFields) (kind : WindowKind) : Window :=
  let k := clamp 0 6 f.k
  { inUse := true
    start := clamp 0 (cycle - 1) f.start
    length := clamp 1 cycle f.length
    kind
    owner := if kind = .owned then f.owner else 0
    mask := maskOf f.mask
    k
    c := clamp 0 (2 ^ k - 1) f.c }

/-- Changes the staged window table. -/
def State.onWindows (f : List Window → List Window) (s : State) : State :=
  s.onIo (Io.onEs fun e => { e with staged := f e.staged })

/-- WRITE ENTRY on the window table (R76). The index is tested first, then the pending commit, then the fields (DESIGN
CHOICE, log 45). -/
def writeWindow (active : Bool) (index : Nat) (f : WindowFields) (s : State) : Answer :=
  if active then refuse .malformed s
  else if Config.windowCount ≤ index then refuse .notFound s
  else if s.io.es.pending.isSome then refuse .stagePending s
  else
    match windowKindOf f.kind with
    | none => refuse .malformed s
    | some kind =>
      if kind = .owned ∧ (f.owner = 0 ∨ 8 < f.owner) then refuse .malformed s
      else ok (s.onWindows fun l => l.set index (windowOf s.tb.cycle f kind))

/-- CLEAR ENTRY on the window table (R76). The index is tested before the pending commit (DESIGN CHOICE, log 45). -/
def clearWindow (active : Bool) (index : Nat) (s : State) : Answer :=
  if active then refuse .malformed s
  else if Config.windowCount ≤ index then refuse .notFound s
  else if s.io.es.pending.isSome then refuse .stagePending s
  else ok (s.onWindows fun l => l.modify index fun w => { w with inUse := false })

def nodeId (n : Nat) : Bool := 1 ≤ n && n ≤ 8

def peerBytes (p : Peer) : List Byte := flagByte p.inUse ++ be 2 p.rateOf ++ be 2 p.delayOf

/-- READ ENTRY on the peer table (R79). -/
def readPeer (node : Nat) (s : State) : Answer :=
  if nodeId node then { state := s, status := .ok, records := [peerBytes (s.io.es.peer node)] } else refuse .notFound s

/-- Changes a peer entry. -/
def State.setPeer (node : Nat) (p : Peer) (s : State) : State :=
  s.onIo (Io.onEs fun e => { e with peers := e.peers.set (node - 1) p })

/-- WRITE ENTRY on the peer table (R79). -/
def writePeer (node rate delay : Nat) (s : State) : Answer :=
  if nodeId node then ok (s.setPeer node { inUse := true, rate := clamp 6 2400 rate, delay := clamp 0 1023 delay })
  else refuse .notFound s

/-- CLEAR ENTRY on the peer table (R79). -/
def clearPeer (node : Nat) (s : State) : Answer :=
  if nodeId node then ok (s.setPeer node { s.io.es.peer node with inUse := false }) else refuse .notFound s

/-- READ ENTRY on the queue parameters (R71): the values as written. -/
def readQueueParams (index : Nat) (s : State) : Answer :=
  match portOf (index / 4) with
  | some p =>
    let e := s.io.port p
    let w := e.written.get (index % 4)
    { state := s, status := .ok,
      records := [be 2 (e.limit.get (index % 4)) ++ be 2 w.quantum ++ be 3 w.cap ++ flagByte w.borrow] }
  | none => refuse .notFound s

/-- The parameters as written by a SET QUEUE PARAMETERS (R71). -/
def writeQParams (f : QueueFields) (w : QParams) : QParams :=
  let q := (f.quantum.map (clamp 0 65535)).getD w.quantum
  { quantum := q
    cap := (f.cap.map (clamp q 262143)).getD (max w.cap q)
    borrow := f.borrow.getD w.borrow }

/-- SET QUEUE PARAMETERS (R71). -/
def setQueueParams (port cls : Nat) (f : QueueFields) (s : State) : Answer :=
  match portOf port with
  | none => refuse .notFound s
  | some p =>
    if 3 < cls then refuse .notFound s
    else ok (s.onIo (Io.onPort p fun e =>
      { e with
        limit := e.limit.set cls ((f.limit.map (clamp 0 2048)).getD (e.limit.get cls))
        written := e.written.set cls (writeQParams f (e.written.get cls)) }))

/-- A window table commit under NOW (R85): the window in effect is found again and, if it is a window, opens (R77, R81).
WINDOW_COMMITTED is raised before the opening (DESIGN CHOICE, log 46). -/
def commitWindowNow (s : State) : State := observeWindow (s.onIo (takeWindowCommit .now s.mt))

/-- COMMIT on the window table (R84, R85). The pending commit is tested first (STAGE_PENDING), then the method
(MALFORMED), then the table (TABLE_INVALID) (DESIGN CHOICE, log 53). -/
def commitWindow (method : Nat) (s : State) : Answer :=
  if s.io.es.pending.isSome then refuse .stagePending s
  else
    match windowMethodOf method with
    | none => refuse .malformed s
    | some m =>
      match invalidWindows s.tb.cycle s.io.es.staged with
      | some i => { state := s, status := .tableInvalid, records := [be 1 3 ++ be 2 i] }
      | none =>
        ok (if m = .now then commitWindowNow s
            else s.onIo (Io.onEs fun e => { e with pending := some m }))

/-- DISCARD on the window table (R86). -/
def discardWindow (s : State) : Answer :=
  ok (s.onIo (Io.onEs fun e => { e with staged := e.active, pending := none }))

/-! ## Meanings -/

/-- A window in effect that differs from the one last observed opens (R77, R81). -/
def execWindowOpening (s : State) : Host.Outcome State Fault Refusal := .next (observeWindow s)

/-- A choice at a port whose slot is free, where an event of R73 asks for one (R73, R74). -/
def execFrameRelease (port : Port) (s : State) : Host.Outcome State Fault Refusal :=
  .next (s.onIo (releaseNext port s.tb))

def execTransmitDone (port : Port) (success : Bool) (s : State) : Host.Outcome State Fault Refusal :=
  .next (transmitDone port success s)

def execReadEntryBackhaulWindow (h : ReqHead) (active : Bool) (index : Nat) (s : State) :
    Host.Outcome State Fault Refusal :=
  .next (request h 4 (readWindow active index) s)

def execWriteEntryBackhaulWindow (h : ReqHead) (active : Bool) (index : Nat) (f : WindowFields) (s : State) :
    Host.Outcome State Fault Refusal :=
  .next (request h 5 (writeWindow active index f) s)

def execClearEntryBackhaulWindow (h : ReqHead) (active : Bool) (index : Nat) (s : State) :
    Host.Outcome State Fault Refusal :=
  .next (request h 6 (clearWindow active index) s)

def execReadEntryPeer (h : ReqHead) (node : Nat) (s : State) : Host.Outcome State Fault Refusal :=
  .next (request h 4 (readPeer node) s)

def execWriteEntryPeer (h : ReqHead) (node rate delay : Nat) (s : State) : Host.Outcome State Fault Refusal :=
  .next (request h 5 (writePeer node rate delay) s)

def execClearEntryPeer (h : ReqHead) (node : Nat) (s : State) : Host.Outcome State Fault Refusal :=
  .next (request h 6 (clearPeer node) s)

def execReadEntryQueueParameters (h : ReqHead) (index : Nat) (s : State) : Host.Outcome State Fault Refusal :=
  .next (request h 4 (readQueueParams index) s)

def execCommitWindowTable (h : ReqHead) (method : Nat) (s : State) : Host.Outcome State Fault Refusal :=
  .next (request h 7 (commitWindow method) s)

def execDiscardWindowTable (h : ReqHead) (s : State) : Host.Outcome State Fault Refusal :=
  .next (request h 8 discardWindow s)

def execSetQueueParameters (h : ReqHead) (port cls : Nat) (f : QueueFields) (s : State) :
    Host.Outcome State Fault Refusal :=
  .next (request h 26 (setQueueParams port cls f) s)

/-- SET BACKHAUL PARAMETERS (R80): both values fit one byte and its range. -/
def execSetBackhaulParameters (h : ReqHead) (overhead guardTime : Nat) (s : State) : Host.Outcome State Fault Refusal :=
  .next (request h 27 (fun x => ok (x.onIo (Io.onEs fun e =>
    { e with overhead := clamp 0 255 overhead, guardTime := clamp 0 255 guardTime }))) s)

end Sys2Proof.Machine
end

