-- ==== Sys2Proof/Machine/Intake.lean ====
section
/-! DEFINITION. The data intake (section 2.7) and the paths of control frames (section 2.6, R174): stages, routes,
copies, the control queue and the relay. -/

namespace Sys2Proof.Machine

/-! ## Data intake (R41 to R47) -/

/-- A frame counted in FRAMES_IN (R28). -/
def countFrameIn (p : Port) : Io → Io := countFp fun c => { c with framesIn := c.framesIn.inc p }

/-- A held frame dropped as NO_ROUTE (section 2.8). -/
def dropNoRoute (f : QFrame) (s : State) : State := s.onIo fun io => countNoRoute (freeCells f.cells io)

/-- The address of a data frame's station, by where it came from (R42). -/
def stationAddr (p : Port) (hdr : Option DataHdr) (frame : List Byte) : Option Addr :=
  match p with
  | .fp0 => if isGroup (linkDst frame) then none else some (linkDst frame)
  | .fp1 => some (linkSrc frame)
  | .fp2 => some (linkSrc frame)
  | .fp3 =>
    match hdr with
    | some h => if h.station = 0 then none else some h.station
    | none => none

/-- A frame placed in the class queue of a port other than FP3. -/
def toPort (p : Port) (f : QFrame) (s : State) : State := s.onIo fun io => (placeClass true p f io).2

/-- A frame sent over FP3 to a node or to all (R46). -/
def toNode (dst : Nat) (station : Option Addr) (f : QFrame) (s : State) : State :=
  s.onIo fun io => (placeClass true .fp3 (toBackhaul s dst station f) io).2

/-- A destination without an entry, or AWAY with its server unknown (R44). -/
def routeUnknown (p : Port) (station : Option Addr) (f : QFrame) (s : State) : State :=
  if s.io.fp.gateway then
    match p with
    | .fp0 => toNode 0 station f s
    | _ => toPort .fp0 f s
  else
    match p with
    | .fp3 => toPort .fp0 f s
    | _ => if s.io.fp.gatewayId = s.node then dropNoRoute f s else toNode s.io.fp.gatewayId station f s

/-- The server an AWAY entry sends to: its current server, when it is known and not this node (R43). -/
def StState.serverOf (st : StState) (own : Nat) : Option Nat :=
  match st with
  | .away (some n) _ => if n = own then none else some n
  | _ => none

/-- An AWAY or DETACHED destination without a context that takes the frame (R43). -/
def routeGone (p : Port) (station : Option Addr) (f : QFrame) (st : StState) (s : State) : State :=
  if st.isAway then
    match st.serverOf s.node with
    | some n => toNode n station f s
    | none => routeUnknown p station f s
  else dropNoRoute f s

/-- A frame for a single station address with an entry here (R43); `sender` is the sending node of a frame from FP3. -/
def routeEntry (p : Port) (sender : Option Nat) (station : Option Addr) (f : QFrame) (e : Station) (s : State) : State :=
  match e.st with
  | .serving r _ => toPort (radioPort r) f s
  | .arriving _ _ =>
    match s.arriveOf e.addr with
    | some (i, c) => holdFrame i c f s
    | none => dropHeld s f
  | st =>
    if (st.serverOf s.node).isSome && st.serverOf s.node = sender then dropNoRoute f s
    else
      match s.departOf e.addr with
      | some (i, c) =>
        match c.st with
        | .await _ _ _ _ _ _ => holdFrame i c f s
        | .depart false _ _ _ _ _ => forwardFrame true i s f
        | _ => routeGone p station f st s
      | none => routeGone p station f st s

/-- The ports a group frame goes to, in order (R45). -/
def groupPorts (p : Port) : List Port := Port.all.filter (· ≠ p)

/-- A group frame or a copy placed at one port (R45). -/
def placeGroup (station : Option Addr) (f : QFrame) (q : Port) (s : State) : State :=
  if q = .fp3 then toNode 0 station f s else toPort q f s

/-- A copy with cells of its own, or none when they cannot be had (R45). It asks for as many cells as the original took
at its arrival, for a frame from FP3 those of its mesh header too (DESIGN CHOICE, log 37). -/
def copyGroup (station : Option Addr) (f : QFrame) (s : State) (q : Port) : State :=
  let r := allocData q f.cells s.io
  let s1 := s.onIo fun _ => r.2
  if r.1 then placeGroup station f q s1 else s1

/-- A group-addressed frame (R45). The original is placed first, and freed with its QUEUE_DROP notice if its class queue
refuses it; then each copy, in port order, asks for its cells and is placed before the next one asks (DESIGN CHOICE,
log 50). -/
def routeGroup (p : Port) (station : Option Addr) (f : QFrame) (s : State) : State :=
  match groupPorts p with
  | q :: qs => qs.foldl (copyGroup station f) (placeGroup station f q s)
  | [] => dropNoRoute f s

/-- Stages 5 and 6 for a frame without the FWD flag (R43 to R45). -/
def route (p : Port) (sender : Option Nat) (station : Option Addr) (f : QFrame) (s : State) : State :=
  let d := linkDst f.bytes
  if isGroup d then routeGroup p station f s
  else
    match s.entry d with
    | some e => routeEntry p sender station f e s
    | none => routeUnknown p station f s

/-- Stage 4: a frame dropped by its schedule (R139); its cells are freed at the drop (R30), and a FWD frame is told to the
Handoff Unit (R109). -/
def scheduleDrop (p : Port) (hdr : Option DataHdr) (n : Nat) (s : State) : State :=
  let s1 := (s.onIo (freeCells n)).countSe fun k => { k with scheduleDrop := k.scheduleDrop.inc p }
  match hdr with
  | some h => if h.fwd then toldFwdDrop h.station s1 else s1
  | none => s1

/-- Stages 5 and 6 (R43 to R47). -/
def deliver (p : Port) (hdr : Option DataHdr) (station : Option Addr) (f : QFrame) (s : State) : State :=
  match hdr with
  | some h => if h.fwd then takeFwd h.station h.src f s else route p (some h.src) station f s
  | none => route p none station f s

/-- Stages 2 to 6 of a data frame that holds its cells (R41). -/
def intakeTaken (p : Port) (hdr : Option DataHdr) (frame : List Byte) (n : Nat) (s : State) : State :=
  let e := (stationAddr p hdr frame).bind s.entry
  let c := classify p e (hdr.map (·.cls)) frame s
  if c.suppressed then scheduleDrop p hdr n c.state
  else deliver p hdr (e.map (·.addr)) { hdr := none, content := .data frame, cls := c.cls, cells := n } c.state

/-- The intake of a data frame (R41); `len` is its length as the port delivers it. -/
def intake (p : Port) (hdr : Option DataHdr) (frame : List Byte) (len : Nat) (s : State) : State :=
  let r := allocData p (cellsFor len) s.io
  if r.1 then intakeTaken p hdr frame (cellsFor len) (s.onIo fun _ => countFrameIn p r.2)
  else s.onIo fun _ => r.2

/-! ## Control requests (R34, R38, R39, R174) -/

/-- Whether a port's admission permits a request (R173, R39). -/
def permits (a : Admission) (read : Bool) : Bool :=
  match a with
  | .none => false
  | .view => read
  | .manage => true

/-- The control header's code and tag (10.6). -/
def ctlCode (payload : List Byte) : Nat := field payload 3 2

def ctlTag (payload : List Byte) : Nat := field payload 1 2

/-- Whether a control payload is a response; one too short for a header is a request (R183). -/
def isResponse (payload : List Byte) : Bool := 5 ≤ payload.length && field payload 0 1 = 2

/-- Whether a control payload's direction byte is unlisted (R183). -/
def badDirection (payload : List Byte) : Bool :=
  5 ≤ payload.length && field payload 0 1 ≠ 1 && field payload 0 1 ≠ 2

/-- A request handed to the Control Unit (R174); `refused` says that its relay was refused (R39). -/
def handRequest (p : Port) (dst : Nat) (refused : Bool) (payload : List Byte) (io : Io) : Io :=
  if payload.length < 5 then countCu (fun c => { c with controlMalformed := satInc c.controlMalformed }) io
  else
    let denied := refused || !permits (io.cu.admission.get p) (isRead (ctlCode payload))
    if io.cu.queue.length < Config.controlDepth then
      io.onCu fun c => { c with queue := c.queue ++ [{ denied, port := p, dest := dst, payload }] }
    else
      raise (.queueOverflow p (ctlTag payload))
        (countCu (fun c => { c with controlOverflow := satInc c.controlOverflow }) io)

/-- A request relayed over FP3 (R39): the frame keeps its cells and header, with this node as its source. -/
def relayRequest (h : MeshHdr) (payload : List Byte) (n : Nat) (io : Io) : Io :=
  (placeMgmt .fp3 { hdr := some { h with src := io.node }, content := .control payload, cells := n } io).2

/-- A request that arrived on FP0, FP1 or FP2, holding `n` cells (R34, R39). Of the two hand-overs of a permitted read
with destination 0 the Control Unit's comes first, so that the notice of a QUEUE_OVERFLOW takes its cells and its queue
place before the relayed frame is placed (DESIGN CHOICE, log 51). -/
def takeLocalRequest (p : Port) (h : MeshHdr) (payload : List Byte) (n : Nat) (io : Io) : Io :=
  if h.dst = io.node ∨ payload.length < 5 then handRequest p h.dst false payload (freeCells n io)
  else
    let read := isRead (ctlCode payload)
    let may := permits (io.cu.admission.get p) read
    if h.dst = 0 then
      if read && may then relayRequest h payload n (handRequest p 0 false payload io)
      else handRequest p 0 false payload (freeCells n io)
    else if may then relayRequest h payload n io
    else handRequest p h.dst true payload (freeCells n io)

/-- A response or notice from FP3 for this node (R40). Its body is not read: a field outside its list or a body shorter than
its layout (R182) does not keep it from the controller (DESIGN CHOICE, log 58). -/
def relayHome (h : MeshHdr) (c : Content) (n : Nat) (io : Io) : Io :=
  let lost := countNoRoute (freeCells n io)
  match io.cu.reg with
  | none => lost
  | some reg =>
    if reg.node = io.node then
      (placeMgmt reg.port { hdr := some h, link := some reg.addr, content := c, cells := n } io).2
    else lost

/-- A drop for a malformed header (R32). -/
def countMalformed (p : Port) : Io → Io := countFp fun c => { c with malformedHeader := c.malformedHeader.inc p }

/-- A drop for a kind the port does not accept (R34). -/
def countWrongKind (p : Port) : Io → Io := countFp fun c => { c with wrongPortKind := c.wrongPortKind.inc p }

/-- A drop for another node (R33). -/
def countNotForNode : Io → Io := countFp fun c => { c with notForNode := satInc c.notForNode }

/-- Whether a frame on FP3 is for this node (R33). -/
def forNode (h : MeshHdr) (io : Io) : Bool := h.dst = io.node || h.dst = 0

/-- A CONTROL frame holding `n` cells (R33, R34, R183). On FP3 the destination is tested before the direction byte and the
length of the payload (DESIGN CHOICE, log 57). -/
def takeControl (p : Port) (h : MeshHdr) (payload : List Byte) (n : Nat) (io : Io) : Io :=
  if p = .fp3 ∧ !forNode h io then countNotForNode (freeCells n io)
  else if badDirection payload then countMalformed p (freeCells n io)
  else if p = .fp3 then
    if isResponse payload then relayHome h (.control payload) n io
    else handRequest p h.dst false payload (freeCells n io)
  else if isResponse payload then countWrongKind p (freeCells n io)
  else takeLocalRequest p h payload n io

/-- A NOTICE on FP3 holding `n` cells (R33, R40). It is relayed unread (DESIGN CHOICE, log 58). -/
def takeNotice (h : MeshHdr) (payload : List Byte) (n : Nat) (io : Io) : Io :=
  if forNode h io then relayHome h (.notice payload) n io else countNotForNode (freeCells n io)

/-- A frame of a management kind given its cells at arrival, which keeps them (R28, R29). -/
def takeKept (p : Port) (k : Kind) (len : Nat) (handle : Nat → Io → Io) (io : Io) : Io :=
  let r := allocMgmt p k (cellsFor len) io
  if r.1 then handle (cellsFor len) (countFrameIn p r.2) else r.2

/-- The length of a mesh frame as a port delivers it (R28, R32). -/
def meshFrameLen (p : Port) (payload : List Byte) : Nat :=
  payload.length + meshLen + (if p = .fp3 then 0 else linkLen)

/-! ## Meanings -/

/-- The arrival of a data frame that passes the checks of R28 and R32. -/
def execDataFrameArrival (port : Port) (hdr : Option DataHdr) (bytes : List Byte) (s : State) :
    Host.Outcome State Fault Refusal :=
  .next (intake port hdr bytes (bytes.length + (if hdr.isSome then meshLen else 0)) s)

/-- The arrival of a CONTROL frame with a request (R34, R38, R39, R174). -/
def execControlRequestArrival (port : Port) (nodes : NodePair) (payload : List Byte) (s : State) :
    Host.Outcome State Fault Refusal :=
  .next (s.onIo (takeKept port .control (meshFrameLen port payload)
    (takeControl port { src := nodes.src, dst := nodes.dst } payload)))

/-- The arrival on FP3 of a CONTROL response or a NOTICE (R40). -/
def execResponseNoticeRelay (notice : Bool) (nodes : NodePair) (payload : List Byte) (s : State) :
    Host.Outcome State Fault Refusal :=
  let h : MeshHdr := { src := nodes.src, dst := nodes.dst }
  .next (s.onIo (takeKept .fp3 (if notice then .notice else .control) (meshFrameLen .fp3 payload)
    (if notice then takeNotice h payload else takeControl .fp3 h payload)))

end Sys2Proof.Machine
end

