-- ==== Sys2Proof/Machine/TimeBase.lean ====
section
/-! DEFINITION. The Time Base (chapter 1): the advance of local time, beacons, sync states, rate correction, presets,
the calendar, quiet cycles, cycle starts with what every block does at them, and the Time Base's requests. -/

namespace Sys2Proof.Machine

/-! ## Local time and the rate (R1, R2) -/

/-- Counts in the SYNC counters. -/
def State.countTb (f : SyncCounters → SyncCounters) (s : State) : State :=
  s.onTb fun t => { t with counters := f t.counters }

/-- N and D written; the carried fraction is kept exactly, over a denominator that is a multiple of the new N (R1,
log 11). -/
def TimeBase.setRate (n d : Nat) (t : TimeBase) : TimeBase :=
  let g := Nat.gcd t.fracNum t.fracDen
  let q := t.fracDen / g
  let den := Nat.lcm q n
  { t with n, d, fracNum := t.fracNum / g * (den / q), fracDen := den }

/-- One reference period (R1). -/
def TimeBase.tick (t : TimeBase) : TimeBase :=
  let sum := t.fracNum + t.d * (t.fracDen / t.n)
  { t with fracNum := sum % t.fracDen, lt := t.lt + BitVec.ofNat 48 (sum / t.fracDen) }

/-- The ends of the trim band (R2). -/
def bandLow (nBase : Nat) : Nat := nBase - nBase / 512

def bandHigh (nBase : Nat) : Nat := nBase + nBase / 512

/-- SET RATE (R2). -/
def setRate (n d : Nat) (s : State) : Answer :=
  let n' := clamp 1 262143 n
  let d' := clamp 1 16383 d
  if n' < 8 * d' then refuse .malformed s
  else ok (s.onTb fun t => { t.setRate n' d' with nBase := n', rateAnchor := none })

/-! ## Schedule time (R133) -/

/-- T_s follows MT while MT is ahead of it. -/
def followTs (s : State) : State := if 0 < (s.mt - s.se.ts).toInt then s.onSe fun e => { e with ts := s.mt } else s

/-- A discontinuity notice: T_s is set to MT. -/
def noticeTs (s : State) : State := s.onSe fun e => { e with ts := s.mt }

/-- After a write of OFFSET: T_s follows MT (R133); where the write moved mesh time, the window in effect is found anew
(R77). -/
def afterStep (moved : Bool) (s : State) : State :=
  followTs (if moved then
    s.onIo fun io => (io.onEs fun e => { e with seen := none }).onPort .fp3 fun x => { x with choiceDue := true }
  else s)

/-! ## Sync states (R8 to R15) -/

/-- Whether one root is better than another: lower priority number, then lower node id (section 1.5). -/
def betterRoot (p n p' n' : Nat) : Bool := p < p' || (p = p' && n < n')

/-- What every exit from ROOT discards: the pending preset and the quiet list (R15), and the unsent beacon (R14,
log 35). The exit comes first in the step that makes it, so the beacon's cell is free before a notice of that step asks
for cells (DESIGN CHOICE, log 49). Nothing changes where the node is not in ROOT. -/
def exitRoot (s : State) : State :=
  if s.tb.sync = .root then (s.onTb fun t => { t with preset := none, quietList := [] }).onIo dropBeacon else s

/-- SYNC CONTROL (R8). -/
def syncControl (enable : Bool) (s : State) : Answer :=
  if enable then
    ok (if s.tb.sync = .free then s.onTb fun t => { t with sync := .listen, listenWatch := 0 } else s)
  else
    ok ((exitRoot s).onTb fun t => { t with sync := .free, followed := none, rateAnchor := none })

/-- The subset of sync parameters written, clamped (section 1.3). -/
def writeSyncParams (f : SyncFields) (p : SyncParams) : SyncParams where
  priority := (f.priority.map (clamp 0 7)).getD p.priority
  rootWatch := (f.rootWatch.map (clamp 8 255)).getD p.rootWatch
  beaconWatch := (f.beaconWatch.map (clamp 2 32)).getD p.beaconWatch
  lockCount := (f.lockCount.map (clamp 1 15)).getD p.lockCount
  lockWindow := (f.lockWindow.map (clamp 1 63)).getD p.lockWindow
  exponent := (f.exponent.map (clamp 10 16)).getD p.exponent

/-- Whether an in-use entry of either window table would end beyond a cycle (R5). -/
def beyondCycle (e : Egress) (cycle : Nat) : Bool :=
  (e.active.any fun w => w.inUse && cycle < w.stop) || e.staged.any fun w => w.inUse && cycle < w.stop

/-- A root whose priority is 7 leaves ROOT for LISTEN (R14). The unsent beacon's cell is freed before the notice of
ROOT_YIELDED asks for cells (DESIGN CHOICE, log 49). -/
def yieldByPriority (s : State) : State :=
  if s.tb.sync = .root ∧ s.tb.params.priority = 7 then
    ((exitRoot s).onTb fun t => { t with sync := .listen, listenWatch := 0 }).onIo (raise (.rootYielded .listen))
  else s

/-- SET SYNC PARAMETERS (R4, R5). An exponent change that meets both refusals is answered WRONG_STATE (DESIGN CHOICE,
log 53). -/
def setSyncParams (f : SyncFields) (s : State) : Answer :=
  let p := writeSyncParams f s.tb.params
  if p.exponent ≠ s.tb.params.exponent ∧ s.tb.sync ≠ .free then refuse .wrongState s
  else if p.exponent ≠ s.tb.params.exponent ∧ beyondCycle s.io.es (2 ^ p.exponent) then refuse .range s
  else ok (yieldByPriority (s.onTb fun t => { t with params := p }))

/-! ## Beacons received (R9 to R19, R23, R26) -/

/-- The error of an offset step (R17). -/
def stepError (t : TimeBase) (b : Beacon) (ltCap : Time) (delay : Nat) : Int :=
  ((ltCap + t.offset) - (b.mtb + BitVec.ofNat 48 delay)).toInt

/-- The OFFSET after a step (R17). -/
def stepOffset (b : Beacon) (ltCap : Time) (delay : Nat) : Time := b.mtb + BitVec.ofNat 48 delay - ltCap

/-- Whether a step is a mesh time discontinuity (R18). -/
def isDiscontinuity (b : Beacon) (e : Int) : Bool := b.disc || 1000000 < e.natAbs

/-- The sync state and the consecutive count after a beacon from the followed root (R11). -/
def lockAfter (t : TimeBase) (b : Beacon) (e : Int) : SyncState × Nat :=
  if b.disc then (t.sync, t.consec)
  else if e.natAbs ≤ t.params.lockWindow then
    if t.sync = .locked then (.locked, t.consec)
    else (if t.params.lockCount ≤ t.consec + 1 then .locked else .track, satInc8 t.consec)
  else (.track, 0)

/-- What the state rules make of a beacon that passed R9. -/
inductive BeaconClass where
  /-- From the followed root in TRACK or LOCKED (R11). -/
  | followed
  /-- A root followed from now on; whether it is another root (R10, R12, R13, R15). -/
  | follow (another : Bool)
  /-- Ignored (R9, R12). -/
  | ignored
  /-- Ignored and counted ROOT_CONFLICT (R15). -/
  | conflict
  deriving DecidableEq, Repr

/-- R10 to R15 for a beacon that passed the tests of R9. -/
def classBeacon (s : State) (b : Beacon) : BeaconClass :=
  match s.tb.sync with
  | .free => .ignored
  | .listen => .follow true
  | .holdover =>
    match s.tb.followed with
    | some r => .follow (r.node ≠ b.root)
    | none => .follow true
  | .root => if betterRoot b.prio b.root s.tb.params.priority s.node then .follow true else .conflict
  | _ =>
    match s.tb.followed with
    | some r =>
      if r.node = b.root then .followed
      else if betterRoot b.prio b.root r.prio r.node then .follow true
      else .ignored
    | none => .follow true

/-- The tests of R9 other than the node's own id. -/
def beaconBad (t : TimeBase) (b : Beacon) : Bool :=
  b.prio = 7 || b.exp < 10 || 16 < b.exp || b.exp ≠ t.params.exponent || b.mtb.toNat % t.cycle ≠ 0

/-- The new numerator before the clamp (R19 step 3). -/
def rateRaw (n dL dM : Nat) : Nat := (n * dL + dM / 2) / dM

/-- R19 at a count-0 beacon in TRACK or LOCKED. -/
def correctRate (b : Beacon) (ltCap : Time) (s : State) : State :=
  let anchored (x : State) : State := x.onTb fun t => { t with rateAnchor := some (ltCap, b.mtb) }
  match s.tb.rateAnchor with
  | none => anchored s
  | some (la, ma) =>
    let dL := (ltCap - la).toNat
    let dM := (b.mtb - ma).toNat
    if 2 ^ 16 ≤ dM ∧ dM ≤ 2 ^ 24 then
      let raw := rateRaw s.tb.n dL dM
      let new := clamp (bandLow s.tb.nBase) (bandHigh s.tb.nBase) raw
      let s1 := (s.onTb fun t => t.setRate new t.d).countTb fun k => { k with rateUpdates := satInc k.rateUpdates }
      anchored (if new ≠ raw then s1.onIo (raise (.rateClamped s.tb.sync)) else s1)
    else anchored (s.countTb fun k => { k with rateSkipped := satInc k.rateSkipped })

/-- R23 at a count-0 beacon in TRACK or LOCKED. -/
def adoptCalendar (b : Beacon) (s : State) : State :=
  match b.cal with
  | none => s
  | some c =>
    if c.weekSec ≤ 604799 ∧ (c.gen ≠ s.tb.cal.gen ∨ !s.tb.cal.valid ∨ s.tb.cal.unmatched) then
      noticeTs (s.onTb fun t => { t with cal := { anchor := c.anchor, weekSec := c.weekSec, gen := c.gen, valid := true } })
    else s

/-- TRACK or LOCKED. -/
def SyncState.following : SyncState → Bool
  | .track => true
  | .locked => true
  | _ => false

/-- What follows the state changes of a taken beacon (R19, R23, R26). The mark of a QUIET_NEXT beacon is set here, before
the cycle start the beacon's own offset step may have caused is observed; that cycle start is then the first after the
marking and clears the mark, which has replaced an older one (DESIGN CHOICE, log 36). -/
def afterBeacon (b : Beacon) (ltCap : Time) (s : State) : State :=
  let s1 :=
    if s.tb.countOf b.mtb = 0 ∧ s.tb.sync.following then adoptCalendar b (correctRate b ltCap s) else s
  if b.quiet then s1.onTb fun t => { t with quietMark := some (b.mtb + BitVec.ofNat 48 t.cycle) } else s1

/-- The offset step of a taken beacon (R17) with the discontinuity it may be (R18). The events are raised with the sync
state after the beacon. -/
def takeStep (b : Beacon) (ltCap : Time) (new : TimeBase → TimeBase) (events : State → State) (s : State) : State :=
  let delay := (s.io.es.peer b.root).delayOf
  let e := stepError s.tb b ltCap delay
  let s1 := (s.countTb fun k => { k with beaconsAccepted := satInc k.beaconsAccepted }).onTb fun t =>
    new { t with offset := stepOffset b ltCap delay, beaconWatch := 0 }
  let s2 :=
    if isDiscontinuity b e then
      noticeTs ((s1.onTb fun t => { t with rateAnchor := none }).onIo (raise (.meshTimeStep s1.tb.sync e)))
    else s1
  afterBeacon b ltCap (afterStep (stepOffset b ltCap delay ≠ s.tb.offset) (events s2))

/-- A beacon from the followed root (R11). -/
def takeFollowed (b : Beacon) (ltCap : Time) (s : State) : State :=
  let e := stepError s.tb b ltCap (s.io.es.peer b.root).delayOf
  let r := lockAfter s.tb b e
  takeStep b ltCap
    (fun t => { t with sync := r.1, consec := r.2, followed := some { node := b.root, prio := b.prio } })
    (fun x => if s.tb.sync = .locked ∧ r.1 = .track then x.onIo (raise (.lockLost .track)) else x) s

/-- A beacon that makes the node follow its sender from now on (R10, R12, R13, R15). A yielding root's unsent beacon is
discarded first: its cell is free before the notices of MESH_TIME_STEP and ROOT_YIELDED ask for cells (DESIGN CHOICE,
log 49). -/
def takeFollow (another : Bool) (b : Beacon) (ltCap : Time) (s : State) : State :=
  takeStep b ltCap
    (fun t =>
      { t with
        sync := .track
        consec := 0
        followed := some { node := b.root, prio := b.prio }
        rateAnchor := if another then none else t.rateAnchor
        cal := { t.cal with unmatched := t.cal.unmatched || another } })
    (fun x =>
      match s.tb.sync with
      | .root => x.onIo (raise (.rootYielded .track))
      | .holdover => x
      | _ => x.onIo (raise (.rootChanged .track))) (exitRoot s)

/-- A beacon at the Time Base (R9). -/
def takeBeacon (b : Beacon) (ltCap : Time) (s : State) : State :=
  let conflict := s.countTb fun k => { k with rootConflict := satInc k.rootConflict }
  let ignored := s.countTb fun k => { k with beaconsIgnored := satInc k.beaconsIgnored }
  if b.root = s.node then conflict
  else if beaconBad s.tb b then ignored
  else
    match classBeacon s b with
    | .followed => takeFollowed b ltCap s
    | .follow another => takeFollow another b ltCap s
    | .ignored => ignored
    | .conflict => conflict

/-! ## Presets, calendar, quiet cycles (R20 to R26) -/

/-- PRESET TIME (R20). -/
def presetTime (delta : Int) (s : State) : Answer :=
  if s.tb.sync ≠ .root then refuse .notRoot s
  else if 2 ^ 40 < delta.natAbs then refuse .range s
  else if delta % (s.tb.cycle : Int) ≠ 0 then refuse .malformed s
  else if s.tb.preset.isSome then refuse .stagePending s
  else ok (s.onTb fun t => { t with preset := some delta })

/-- SET CALENDAR (R22). -/
def setCalendar (weekSec : Nat) (s : State) : Answer :=
  if s.tb.sync = .root ∨ s.tb.sync = .free then
    ok (noticeTs (s.onTb fun t =>
      { t with cal := { t.cal with anchor := t.mt, weekSec := clamp 0 604799 weekSec, gen := (t.cal.gen + 1) % 256,
                                   valid := true } }))
  else refuse .notRoot s

/-- A time inserted in the quiet list, in ascending order of mesh time. -/
def insertQuiet (t : Time) : List Time → List Time
  | [] => [t]
  | x :: xs => if (t - x).toInt < 0 then t :: x :: xs else x :: insertQuiet t xs

/-- A quiet request judged by the Time Base (R25): the status and the Time Base after. -/
def judgeQuiet (t : Time) (tb : TimeBase) : Status × TimeBase :=
  if tb.sync ≠ .root then (.notRoot, tb)
  else if t.toNat % tb.cycle ≠ 0 then (.malformed, tb)
  else if reached tb.mt (t - BitVec.ofNat 48 tb.cycle) then (.range, tb)
  else if 2 ^ 24 < (t - tb.mt).toNat then (.range, tb)
  else if tb.quietList.contains t then (.ok, tb)
  else if 4 ≤ tb.quietList.length then (.tableFull, tb)
  else (.ok, { tb with quietList := insertQuiet t tb.quietList })

/-- REQUEST QUIET (R25). -/
def requestQuiet (t : Time) (s : State) : Answer :=
  let r := judgeQuiet t s.tb
  { state := s.onTb fun _ => r.2, status := r.1 }

/-! ## Cycle starts (R6, R7) -/

/-- The root's application of a pending preset (R21). The error in its event's detail is a free value (log 9). -/
def applyPreset (s : State) : State :=
  match s.tb.sync, s.tb.preset with
  | .root, some d =>
    let s1 := s.onTb fun t =>
      { t with offset := t.offset + BitVec.ofInt 48 d, preset := none, discOwed := true, rateAnchor := none }
    afterStep true (noticeTs ((s1.onIo (raise (.meshTimeStep .root (Config.freeError s.io.freeCount)))).onIo Io.bumpFree))
  | _, _ => s

/-- The quiet mark judged at a cycle start (R26). -/
def judgeMark (start : Time) (t : TimeBase) : TimeBase :=
  { t with quietNow := t.quietMark = some start, quietMark := none }

/-- ROOT entered (R14). -/
def enterRoot (s : State) : State :=
  (s.onTb fun t => { t with sync := .root, followed := none }).onIo (raise (.rootEntered .root))

/-- Whether the node may become root (R10, R13). -/
def mayRoot (t : TimeBase) : Bool := t.params.priority ≤ 6

/-- The watches of a cycle start and the state changes they cause (R10, R13). -/
def watch (s : State) : State :=
  match s.tb.sync with
  | .listen =>
    let w := satInc8 s.tb.listenWatch
    let s1 := s.onTb fun t => { t with listenWatch := w }
    if s.tb.params.rootWatch ≤ w ∧ mayRoot s.tb then enterRoot s1 else s1
  | .holdover =>
    let w := satInc8 s.tb.beaconWatch
    let s1 := s.onTb fun t => { t with beaconWatch := w }
    if s.tb.params.rootWatch ≤ w ∧ mayRoot s.tb then enterRoot s1 else s1
  | .free => s
  | .root => s
  | _ =>
    let w := satInc8 s.tb.beaconWatch
    let s1 := s.onTb fun t => { t with beaconWatch := w }
    if s.tb.params.beaconWatch ≤ w then
      (s1.onTb fun t => { t with sync := .holdover }).onIo (raise (.holdoverEntered .holdover))
    else s1

/-- The quiet list as a beacon's building leaves it, and whether the next cycle is announced quiet (R26). -/
def announceQuiet (mtb next : Time) (l : List Time) : Bool × List Time :=
  let kept := l.filter fun t => !reached mtb t
  (kept.contains next, kept.filter (· ≠ next))

/-- The beacon of a cycle start (R16). -/
def beaconOf (s : State) (mtb : Time) (quiet : Bool) : Beacon where
  root := s.node
  prio := s.tb.params.priority
  exp := s.tb.params.exponent
  disc := s.tb.discOwed
  quiet := quiet
  mtb := mtb
  cal := if s.tb.countOf mtb = 0 ∧ s.tb.cal.valid then
      some { anchor := s.tb.cal.anchor, weekSec := s.tb.cal.weekSec, gen := s.tb.cal.gen }
    else none

/-- The root's beacon at a cycle start (R16, R26). -/
def sendBeacon (mtb : Time) (s : State) : State :=
  if s.tb.sync = .root then
    let r := allocMgmt .fp3 .beacon 1 s.io
    let s1 := s.onIo fun _ => r.2
    if r.1 then
      let next := mtb + BitVec.ofNat 48 s.tb.cycle
      let q := announceQuiet mtb next s.tb.quietList
      let p := placeBeacon
        { hdr := some { src := s.node, dst := 0 }, content := .beacon (beaconOf s mtb q.1), cells := 1 } s1.io
      (s1.onIo fun _ => p.2).onTb fun t =>
        { t with
          quietList := q.2
          quietMark := if q.1 then some next else t.quietMark
          discOwed := false
          counters :=
            if p.1 then { t.counters with beaconsReplaced := satInc t.counters.beaconsReplaced } else t.counters }
    else s1
  else s

/-- A measurement period ends (R7): the Classifier's part, then the Station Unit's, whose question of game activity may
meet the state before it (R62, log 10). -/
def periodEnd (s : State) : State := stationPeriod s (classifierPeriod s)

/-- One cycle start (R6): an applied preset, the quiet mark, the watches, the beacon, the Egress Service, the RELEASEs
still due in slot order (R118), and at count 0 the period end. Cells and places in the FP3 management queue are taken in
that order, each event's notice where it is raised (DESIGN CHOICE, log 40). -/
def cycleStart (s : State) : State :=
  let s1 := applyPreset s
  let count := s1.tb.count
  let start := s1.tb.startMt
  let s2 := s1.onTb fun t => { judgeMark start t with lastCount := count }
  let s3 := sendBeacon start (watch s2)
  let s4 := retryReleases (s3.onIo (egressCycle count start s3.tb.quietNow))
  if count = 0 then periodEnd s4 else s4

/-- The cycle count observed (R6). -/
def observeCycle (s : State) : State := if s.tb.count = s.tb.lastCount then s else cycleStart s

/-! ## Meanings -/

/-- The arrival on FP3 of a beacon with its receive timestamp (R9, R35). -/
def execBeaconReceived (b : Beacon) (ltCap : Time) (s : State) : Host.Outcome State Fault Refusal :=
  .next (takeManaged .fp3 .beacon (meshLen + (beaconBytes b).length) (takeBeacon b ltCap) s)

/-- A change of the cycle count is a cycle start; without one the observation changes nothing (R6). -/
def execCycleStart (s : State) : Host.Outcome State Fault Refusal := .next (observeCycle s)

def execSetRate (h : ReqHead) (n d : Nat) (s : State) : Host.Outcome State Fault Refusal :=
  .next (request h 16 (setRate n d) s)

def execSetSyncParameters (h : ReqHead) (f : SyncFields) (s : State) : Host.Outcome State Fault Refusal :=
  .next (request h 17 (setSyncParams f) s)

def execSyncControl (h : ReqHead) (enable : Bool) (s : State) : Host.Outcome State Fault Refusal :=
  .next (request h 18 (syncControl enable) s)

def execPresetTime (h : ReqHead) (delta : Int) (s : State) : Host.Outcome State Fault Refusal :=
  .next (request h 19 (presetTime delta) s)

def execSetCalendar (h : ReqHead) (weekSec : Nat) (s : State) : Host.Outcome State Fault Refusal :=
  .next (request h 20 (setCalendar weekSec) s)

def execRequestQuiet (h : ReqHead) (t : Time) (s : State) : Host.Outcome State Fault Refusal :=
  .next (request h 21 (requestQuiet t) s)

end Sys2Proof.Machine
end

