-- ==== Sys2Proof/Machine/Image.lean ====
section
/-! DEFINITION. The Image Engine's slots and flash port, its loading by the controller and its target side (sections 8.1
to 8.4). -/

namespace Sys2Proof.Machine

/-! ## Slots (R151) -/

/-- Counts in the Image Engine's counters. -/
def State.countIe (f : IeCounters → IeCounters) (s : State) : State := s.onIe fun e => { e with counters := f e.counters }

def ImageEngine.slot (e : ImageEngine) (n : Bool) : Slot := if n then e.slot1 else e.slot0

def ImageEngine.setSlot (n : Bool) (x : Slot) (e : ImageEngine) : ImageEngine :=
  if n then { e with slot1 := x } else { e with slot0 := x }

/-- The number of the staging slot (R151). -/
def ImageEngine.stagingNo (e : ImageEngine) : Bool := !e.active

def ImageEngine.staging (e : ImageEngine) : Slot := e.slot e.stagingNo

/-- The state of a slot; none is EMPTY. -/
def Slot.state (x : Slot) : Option SlotState := x.held.map (·.st)

/-- The staging slot's state. -/
def State.stagingState (s : State) : Option SlotState := s.ie.staging.state

/-- Changes the record of a slot that is not EMPTY. -/
def ImageEngine.onRec (n : Bool) (f : SlotRec → SlotRec) (e : ImageEngine) : ImageEngine :=
  e.setSlot n { e.slot n with held := (e.slot n).held.map f }

/-- Changes the staging slot's record. -/
def State.onStaging (f : SlotRec → SlotRec) (s : State) : State := s.onIe fun e => e.onRec e.stagingNo f

/-- Whether a distribution is running (R164). -/
def ImageEngine.running (e : ImageEngine) : Bool :=
  match e.dist with
  | some d => d.phase ≠ .done && d.phase ≠ .aborted
  | none => false

/-- The load number raised, modulo 256 (R151). -/
def nextLoad (n : Nat) : Nat := (n + 1) % 256

/-- Whether the staging slot holds an image of an id. -/
def Slot.holds (x : Slot) (id : Nat) : Bool :=
  match x.held with
  | some r => r.img.id = id
  | none => false

/-- The entries of the write queue that have not begun are removed and their cells freed (R154). -/
def dropUnbegun (s : State) : State :=
  let gone := s.ie.writeQ.filter fun e => !e.begun
  (s.onIo (freeCells (gone.map (·.cells)).sum)).onIe fun e => { e with writeQ := e.writeQ.filter (·.begun) }

/-- Whether an erase of a slot is in flight (R153). -/
def ImageEngine.erasingNow (e : ImageEngine) (n : Bool) : Bool :=
  match e.inFlight with
  | some (.erase m _) => m == n
  | _ => false

/-- The slot operation pending after the staging slot enters ERASING (R153): an erase, unless one is in flight. -/
def ImageEngine.pendErase (e : ImageEngine) : ImageEngine :=
  { e with pendingOp := if e.erasingNow e.stagingNo then none else some .erase }

/-- The staging slot takes a new image and enters ERASING (R156). -/
def openSlot (img : ImageInfo) (s : State) : State :=
  (dropUnbegun s).onIe fun e =>
    let i : ImageInfo := { img with count := clamp 1 8192 img.count }
    (e.setSlot e.stagingNo
      { load := nextLoad e.staging.load
        held := some { img := i, map := List.replicate i.count false, st := .erasing } }).pendErase

/-! ## Missing ranges (R161) -/

/-- The maximal runs of clear flags from index `i` on; `run` is the run being extended. -/
def clearRuns : Nat → List Bool → Option (Nat × Nat) → List (Nat × Nat)
  | _, [], run => run.toList
  | i, true :: bs, run => run.toList ++ clearRuns (i + 1) bs none
  | i, false :: bs, run =>
    clearRuns (i + 1) bs (some (match run with
      | some (a, n) => (a, n + 1)
      | none => (i, 1)))

/-- The missing ranges at or after an index. -/
def missingFrom (map : List Bool) (start : Nat) : List (Nat × Nat) := clearRuns start (map.drop start) none

/-- A MAP REPORT on a slot for an image id (R161). -/
def mapReportOf (x : Slot) (id start : Nat) : MapContent :=
  match x.held with
  | none => { status := .none, more := false, ranges := [] }
  | some r =>
    if r.img.id = id then
      match r.st with
      | .erasing | .receiving =>
        let l := missingFrom r.map start
        { status := .receiving, more := 16 < l.length, ranges := l.take 16 }
      | .complete | .verifying _ | .verified | .armed _ => { status := .complete, more := false, ranges := [] }
      | .switched _ | .failed => { status := .none, more := false, ranges := [] }
    else { status := .none, more := false, ranges := [] }

/-! ## Flash completions (R152 to R155) -/

/-- SLOT_FAILED raised for a slot that enters FAILED (R171). -/
def failSlot (n : Bool) (c : SlotCause) (s : State) : State :=
  (s.onIe (ImageEngine.onRec n fun r => { r with st := .failed })).onIo (raise (.slotFailed n c))

/-- The map cleared with its counts (R153, R155). -/
def SlotRec.cleared (r : SlotRec) (st : SlotState) : SlotRec :=
  { r with map := List.replicate r.img.count false, received := 0, failures := 0, st }

/-- An erase completes (R153). -/
def eraseDone (success : Bool) (s : State) : State :=
  match s.ie.inFlight with
  | some (.erase n _) =>
    let s1 := s.onIe fun e => { e with inFlight := none }
    if (s.ie.slot n).state = some .erasing then
      if success then s1.onIe (ImageEngine.onRec n fun r => r.cleared .receiving) else failSlot n .erase s1
    else s1
  | _ => s

/-- A block's flag set; the count rises when it was clear, and the full count completes the slot (R151, R154). -/
def SlotRec.written (i : Nat) (r : SlotRec) : SlotRec :=
  if r.map[i]?.getD true then r
  else
    { r with
      map := r.map.set i true
      received := r.received + 1
      st := if r.received + 1 = r.img.count ∧ r.st = .receiving then .complete else r.st }

/-- The entry whose write was in flight is removed and its cells freed; RESTART may have discarded it (R172). -/
def dropBegun (s : State) : State :=
  let gone := s.ie.writeQ.filter (·.begun)
  (s.onIo (freeCells (gone.map (·.cells)).sum)).onIe fun e => { e with writeQ := e.writeQ.filter fun x => !x.begun }

/-- A write of the present load fails (R154). SLOT_FAILED, with its NOTICE, comes before the cells of the other entries
are freed (DESIGN CHOICE, log 52). -/
def writeFailed (n : Bool) (s : State) : State :=
  let s1 := (s.countIe fun k => { k with writeFailures := satInc k.writeFailures }).onIe
    (ImageEngine.onRec n fun r => { r with failures := min (r.failures + 1) 3 })
  match (s.ie.slot n).held with
  | some r => if 3 ≤ r.failures + 1 then dropUnbegun (failSlot n .write s1) else s1
  | none => s1

/-- A write completes (R154). -/
def writeDone (success : Bool) (s : State) : State :=
  match s.ie.inFlight with
  | some (.write n load i) =>
    let s1 := dropBegun (s.onIe fun e => { e with inFlight := none })
    if load ≠ (s.ie.slot n).load then s1.countIe fun k => { k with staleCompletions := satInc k.staleCompletions }
    else if success then
      (s1.countIe fun k => { k with blocksWritten := satInc k.blocksWritten }).onIe
        (ImageEngine.onRec n fun r => r.written i)
    else writeFailed n s1
  | _ => s

/-- The outcome of a verify reported (R155). VERIFY_DONE, with its NOTICE, comes before the VERIFY REPORT (DESIGN CHOICE,
log 47). -/
def reportVerify (n : Bool) (id : Nat) (reply : ReplyTo) (isMatch : Bool) (s : State) : State :=
  let s1 := s.onIo (raise (.verifyDone n isMatch))
  match reply with
  | .controller => s1
  | .node m q => s1.onIo fun io => (sendImage m { query := q, id, body := .verifyReport isMatch } io).2

/-- A verify of a VERIFYING slot completes (R155). At a read error SLOT_FAILED is raised before VERIFY_DONE (DESIGN CHOICE,
log 52). -/
def verifyOutcome (n : Bool) (r : SlotRec) (reply : ReplyTo) (success : Bool) (data : List Byte) (s : State) : State :=
  if !success then reportVerify n r.img.id reply false (failSlot n .read s)
  else if crc32 data = r.img.crc then
    reportVerify n r.img.id reply true (s.onIe (ImageEngine.onRec n fun x => { x with st := .verified }))
  else
    reportVerify n r.img.id reply false
      (s.onIe fun e => (e.onRec n fun x => x.cleared .erasing).pendErase)

/-- A verify read completes (R155); `data` are the bytes read. -/
def verifyDone (success : Bool) (data : List Byte) (s : State) : State :=
  match s.ie.inFlight with
  | some (.verify n load) =>
    let s1 := s.onIe fun e => { e with inFlight := none }
    if load ≠ (s.ie.slot n).load then s1.countIe fun k => { k with staleCompletions := satInc k.staleCompletions }
    else
      match (s.ie.slot n).held with
      | some r =>
        match r.st with
        | .verifying reply => verifyOutcome n r reply success data s1
        | _ => s1
      | none => s1
  | _ => s

/-! ## Offering a block (R154) -/

/-- Whether the staging slot is RECEIVING, with its record. -/
def ImageEngine.receiving (e : ImageEngine) : Option SlotRec := e.staging.held.filter fun r => r.st = .receiving

/-- Whether a block is already marked or queued. -/
def ImageEngine.known (e : ImageEngine) (r : SlotRec) (i : Nat) : Bool :=
  r.map[i]?.getD false || e.writeQ.any fun x => x.index = i

/-- A block enters the write queue with its cells. -/
def enqueueBlock (i : Nat) (data : List Byte) (cells : Nat) (s : State) : State :=
  s.onIe fun e => { e with writeQ := e.writeQ ++ [{ load := e.staging.load, index := i, data, cells }] }

/-! ## Loading from the controller (R156 to R158) -/

/-- IMAGE OPEN (R156). -/
def imageOpen (img : ImageInfo) (replace : Bool) (s : State) : Answer :=
  let taken : Bool := match s.stagingState with
    | none => false
    | some .failed => false
    | some _ => true
  let armed : Bool := match s.stagingState with
    | some (.armed _) => true
    | _ => false
  if s.ie.running || armed || (taken && !replace) then refuse .wrongState s else ok (openSlot img s)

/-- IMAGE BLOCK (R157). -/
def imageBlock (port : Port) (i crc : Nat) (data : List Byte) (s : State) : Answer :=
  match s.ie.receiving with
  | none => refuse .wrongState s
  | some r =>
    if r.img.count ≤ i then refuse .range s
    else if crc16 data ≠ crc then
      { state := s.countIe fun k => { k with badBlock := satInc k.badBlock }, status := .malformed }
    else if s.ie.known r i then ok s
    else if Config.writeDepth ≤ s.ie.writeQ.length then
      { state := s.countIe fun k => { k with writeQueueFull := satInc k.writeQueueFull }, status := .wrongState }
    else
      let a := allocMgmt port .image 4 s.io
      let s1 := s.onIo fun _ => a.2
      if a.1 then ok (enqueueBlock i data 4 s1) else refuse .wrongState s1

/-- IMAGE CLOSE (R158). -/
def imageClose (s : State) : Answer :=
  if s.stagingState = some .complete then
    ok ((s.onStaging fun r => { r with st := .verifying .controller }).onIe fun e => { e with pendingOp := some .verify })
  else refuse .wrongState s

/-- The staging slot emptied (R158). -/
def abortSlot (s : State) : State :=
  (dropUnbegun s).onIe fun e =>
    { e.setSlot e.stagingNo { load := nextLoad e.staging.load, held := none } with pendingOp := none }

/-- IMAGE ABORT (R158). -/
def imageAbort (s : State) : Answer :=
  match s.stagingState with
  | some (.armed _) => refuse .wrongState s
  | _ => if s.ie.running then refuse .wrongState s else ok (abortSlot s)

/-- IMAGE CANCEL (R158). -/
def imageCancel (s : State) : Answer :=
  match s.stagingState with
  | some (.armed _) => ok (s.onStaging fun r => { r with st := .verified })
  | _ => refuse .wrongState s

/-! ## The target side (R159 to R162) -/

/-- A reply to the node that sent a query. -/
def reply (n query id : Nat) (b : ImageBody) (s : State) : State := s.onIo fun io => (sendImage n { query, id, body := b } io).2

/-- The judging of an ANNOUNCE (R159): the reply and whether the slot takes the image. -/
def judgeAnnounce (img : ImageInfo) (replace : Bool) (s : State) : AnnounceResult × Bool :=
  match s.ie.staging.held with
  | some r =>
    match r.st with
    | .armed _ => (.refused, false)
    | .failed => if s.ie.running then (.busy, false) else (.ready, true)
    | _ =>
      if s.ie.running then (.busy, false)
      else if r.img = { img with count := clamp 1 8192 img.count } then (.ready, false)
      else if replace then (.ready, true)
      else (.busy, false)
  | none => if s.ie.running then (.busy, false) else (.ready, true)

/-- An ANNOUNCE (R159). Where the slot takes a new image, the cells of the unbegun write queue entries (R154) are freed
before the ANNOUNCE REPLY asks for its cells (DESIGN CHOICE, log 52). -/
def takeAnnounce (src query : Nat) (img : ImageInfo) (replace : Bool) (s : State) : State :=
  let j := judgeAnnounce img replace s
  reply src query img.id (.announceReply j.1) (if j.2 then openSlot img s else s)

/-- A BLOCK message whose frame holds `n` cells (R160). -/
def takeBlock (id i crc : Nat) (data : List Byte) (n : Nat) (s : State) : State :=
  let freed := s.onIo (freeCells n)
  let ignored := freed.countIe fun k => { k with blocksIgnored := satInc k.blocksIgnored }
  if crc16 data ≠ crc then freed.countIe fun k => { k with badBlock := satInc k.badBlock }
  else
    match s.ie.receiving with
    | none => ignored
    | some r =>
      if r.img.id ≠ id ∨ r.img.count ≤ i ∨ s.ie.known r i then ignored
      else if Config.writeDepth ≤ s.ie.writeQ.length then
        freed.countIe fun k => { k with writeQueueFull := satInc k.writeQueueFull }
      else enqueueBlock i data n s

/-- A MAP QUERY (R161). -/
def takeMapQuery (src query id start : Nat) (s : State) : State :=
  reply src query id (.mapReport (mapReportOf s.ie.staging id start)) s

/-- A VERIFY QUERY (R161). -/
def takeVerifyQuery (src query id : Nat) (s : State) : State :=
  let report (b : Bool) : State := reply src query id (.verifyReport b) s
  if s.ie.staging.holds id then
    match s.stagingState with
    | some .complete =>
      (s.onStaging fun r => { r with st := .verifying (.node src query) }).onIe fun e =>
        { e with pendingOp := some .verify }
    | some (.verifying _) => s.onStaging fun r => { r with st := .verifying (.node src query) }
    | some .verified => report true
    | some (.armed _) => report true
    | _ => report false
  else report false

/-- The staging slot returned from ARMED to VERIFIED by the protocol (R162). -/
def disarm (s : State) : State :=
  match s.ie.staging.held with
  | some r =>
    match r.st with
    | .armed c => (s.onStaging fun x => { x with st := .verified }).onIo (raise (.disarmed r.img.id c))
    | _ => s
  | none => s

/-- The staging slot armed (R162): the event marks an entry to ARMED. -/
def arm (id : Nat) (c : Time) (s : State) : State :=
  let s1 := s.onStaging fun r => { r with st := .armed c }
  if s.stagingState = some .verified then s1.onIo (raise (.armed id c)) else s1

/-- The judging of a proposal (R162): the answer, the reason of a DEFER, the state after. -/
def judgePropose (id : Nat) (c : Time) (force : Bool) (s : State) : ProposeResult × DeferReason × State :=
  let ready : Bool := s.ie.staging.holds id && match s.stagingState with
    | some .verified => true
    | some (.armed _) => true
    | _ => false
  if !ready then (.refused, .none, s)
  else if reached s.mt c then (.refused, .none, s)
  else if !force && s.nodeGameActive then (.defer, .gameActive, disarm s)
  else if !force && s.maintenance c = .outside then (.defer, .outsideMaintenance, disarm s)
  else (.accept, .none, arm id c s)

/-- A PROPOSE (R162). ARMED or DISARMED, with its NOTICE, comes before the PROPOSE REPLY (DESIGN CHOICE, log 47). -/
def takePropose (src query id : Nat) (c : Time) (force : Bool) (s : State) : State :=
  let j := judgePropose id c force s
  reply src query id (.proposeReply j.1 j.2.1) j.2.2

/-- A CANCEL (R162). DISARMED, with its NOTICE, comes before the CANCEL REPLY (DESIGN CHOICE, log 47). -/
def takeCancel (src query id : Nat) (s : State) : State :=
  let answer (b : Bool) (x : State) : State := reply src query id (.cancelReply b) x
  if s.ie.staging.holds id then
    match s.stagingState with
    | some (.armed _) => answer true (disarm s)
    | some .verified => answer true s
    | _ => answer false s
  else answer false s

/-- A QUIET REQUEST: the Time Base judges it as REQUEST QUIET (R25). -/
def takeQuietRequest (src query id : Nat) (t : Time) (s : State) : State :=
  let r := judgeQuiet t s.tb
  reply src query id (.quietReply r.1) (s.onTb fun _ => r.2)

/-! ## The switch (R163) -/

/-- MT observed at an ARMED staging slot. -/
def observeSwitch (s : State) : State :=
  match s.ie.staging.held with
  | some r =>
    match r.st with
    | .armed c =>
      if reached s.mt c then
        let n := s.ie.stagingNo
        (s.onIe fun e =>
          let e1 := e.onRec n fun x => { x with st := .switched c }
          { e1.setSlot (!n) { load := nextLoad (e.slot (!n)).load, held := none } with
            switchOut := some n, active := n }).onIo (raise (.switched n r.img.id c))
      else s
    | _ => s
  | none => s

/-! ## Meanings -/

/-- The length of an IMAGE frame on FP3. -/
def imageLen (b : ImageBody) : Nat := meshLen + (imageBytes { query := 0, id := 0, body := b }).length

/-- The arrival of an IMAGE frame other than a BLOCK (R37). -/
def takeImage (b : ImageBody) (handle : State → State) (s : State) : State :=
  takeManaged .fp3 .image (imageLen b) handle s

/-- The arrival of a BLOCK frame, which keeps its cells (R37). -/
def takeBlockFrame (id i crc : Nat) (data : List Byte) (len : Nat) (s : State) : State :=
  let r := allocMgmt .fp3 .image (cellsFor len) s.io
  if r.1 then takeBlock id i crc data (cellsFor len) (s.onIo fun _ => countFrameIn .fp3 r.2) else s.onIo fun _ => r.2

def execAnnounce (src query : Nat) (img : ImageInfo) (replace : Bool) (s : State) : Host.Outcome State Fault Refusal :=
  .next (takeImage (.announce img.version img.count img.crc replace) (takeAnnounce src query img replace) s)

def execBlockMessage (id index crc : Nat) (data : List Byte) (s : State) : Host.Outcome State Fault Refusal :=
  .next (takeBlockFrame id index crc data (imageLen (.block index crc data)) s)

def execMapQuery (src query id start : Nat) (s : State) : Host.Outcome State Fault Refusal :=
  .next (takeImage (.mapQuery start) (takeMapQuery src query id start) s)

def execVerifyQuery (src query id : Nat) (s : State) : Host.Outcome State Fault Refusal :=
  .next (takeImage .verifyQuery (takeVerifyQuery src query id) s)

def execPropose (src query id : Nat) (cutover : Time) (force : Bool) (s : State) : Host.Outcome State Fault Refusal :=
  .next (takeImage (.propose cutover force) (takePropose src query id cutover force) s)

def execCancel (src query id : Nat) (s : State) : Host.Outcome State Fault Refusal :=
  .next (takeImage .cancel (takeCancel src query id) s)

def execQuietRequest (src query id : Nat) (t : Time) (s : State) : Host.Outcome State Fault Refusal :=
  .next (takeImage (.quietRequest t) (takeQuietRequest src query id t) s)

/-- MT observed at an ARMED staging slot (R163). -/
def execImageSwitch (s : State) : Host.Outcome State Fault Refusal := .next (observeSwitch s)

def execEraseComplete (success : Bool) (s : State) : Host.Outcome State Fault Refusal := .next (eraseDone success s)

def execWriteComplete (success : Bool) (s : State) : Host.Outcome State Fault Refusal := .next (writeDone success s)

def execVerifyComplete (success : Bool) (data : List Byte) (s : State) : Host.Outcome State Fault Refusal :=
  .next (verifyDone success data s)

def execImageOpen (h : ReqHead) (img : ImageInfo) (replace : Bool) (s : State) : Host.Outcome State Fault Refusal :=
  .next (request h 40 (imageOpen img replace) s)

def execImageBlock (h : ReqHead) (index crc : Nat) (data : List Byte) (s : State) : Host.Outcome State Fault Refusal :=
  .next (request h 41 (imageBlock h.port index crc data) s)

def execImageClose (h : ReqHead) (s : State) : Host.Outcome State Fault Refusal := .next (request h 42 imageClose s)

def execImageAbort (h : ReqHead) (s : State) : Host.Outcome State Fault Refusal := .next (request h 43 imageAbort s)

def execImageCancel (h : ReqHead) (s : State) : Host.Outcome State Fault Refusal := .next (request h 44 imageCancel s)

end Sys2Proof.Machine
end

