-- ==== Sys2Proof/Machine/Distributor.lean ====
section
/-! DEFINITION. The Image Engine as distributor (section 8.5): its queries and their replies, the phases of a
distribution, proposal passes, deferrals, the flash port's next operation, and the distribution requests. -/

namespace Sys2Proof.Machine

/-! ## The distribution record (R164) -/

/-- Changes the distribution record. -/
def State.onDist (f : Dist → Dist) (s : State) : State := s.onIe fun e => { e with dist := e.dist.map f }

/-- What a distribution record, where there is one, makes of a state. -/
def withDist (f : Dist → State → State) (s : State) : State :=
  match s.ie.dist with
  | some d => f d s
  | none => s

/-- Changes the target at a position of the list. -/
def Dist.onTarget (i : Nat) (f : Target → Target) (d : Dist) : Dist := { d with targets := d.targets.modify i f }

/-- The first target at or after a position that satisfies a condition, with its position. -/
def nextTarget (p : Target → Bool) (start : Nat) (d : Dist) : Option (Nat × Target) :=
  ((d.targets.zipIdx.drop start).find? fun x => p x.1).map fun x => (x.2, x.1)

/-- A target's node id; 0 for a position outside the list. -/
def Dist.nodeAt (d : Dist) (i : Nat) : Nat := match d.targets[i]? with
  | some t => t.node
  | none => 0

/-- An IMAGE event raised. -/
def raiseImage (e : Event) (s : State) : State := s.onIo (raise e)

/-! ## Queries (R165) -/

/-- The node a query goes to. -/
def QueryKind.dst (d : Dist) : QueryKind → Nat
  | .quiet root => root
  | _ => d.nodeAt d.cursor

/-- The message of a query. -/
def QueryKind.body (d : Dist) : QueryKind → ImageBody
  | .announce => .announce d.img.version d.img.count d.img.crc d.replace
  | .map start => .mapQuery start
  | .verify => .verifyQuery
  | .propose => .propose (d.cutover.getD 0) d.forced
  | .cancel => .cancel
  | .quiet _ => .quietRequest (d.cutover.getD 0)

/-- The timeout of a query in MU of local time (section 8.5). -/
def QueryKind.timeout (p : ImageParams) : QueryKind → Nat
  | .announce => p.announceTimeout
  | .map _ => p.mapTimeout
  | .verify => p.verifyTimeout
  | _ => p.proposeTimeout

/-- The retries of a query (section 8.5). -/
def QueryKind.retries (p : ImageParams) : QueryKind → Nat
  | .announce => p.announceRetries
  | .map _ => p.mapRetries
  | .verify => p.verifyRetries
  | _ => p.proposeRetries

/-- An IMAGE message placed under the next query number, counted when the queue takes it (R165). The number is used up also
when the pool refuses the frame its cells (DESIGN CHOICE, log 56). -/
def placeQuery (dst id : Nat) (b : ImageBody) (s : State) : State :=
  let n := (s.ie.queryNum + 1) % 65536
  let r := sendImage dst { query := n, id, body := b } s.io
  let s1 := (s.onIo fun _ => r.2).onIe fun e => { e with queryNum := n }
  if r.1 then s1.countIe fun k => { k with queriesSent := satInc k.queriesSent } else s1

/-- A query sent; it is outstanding whether or not the queue takes it (R165), and also when the pool refuses it its cells
(DESIGN CHOICE, log 56). -/
def sendQuery (k : QueryKind) (s : State) : State :=
  withDist (fun d x =>
    let y := placeQuery (k.dst d) d.img.id (k.body d) x
    y.onDist fun z =>
      { z with query := some {
          num := y.ie.queryNum, kind := k,
          deadline := x.tb.lt + BitVec.ofNat 48 (k.timeout x.ie.params) } }) s

/-- A query to the target at a position. -/
def sendTo (i : Nat) (k : QueryKind) (s : State) : State := sendQuery k (s.onDist fun d => { d with cursor := i })

/-- No query is outstanding. -/
def endQuery (s : State) : State := s.onDist fun d => { d with query := none }

/-! ## Deferrals and cancels (R169, R170) -/

/-- The distribution ends (R169 to R171). -/
def endDist (phase : Phase) (c : EndCause) (s : State) : State :=
  raiseImage (.distributionEnded c) (s.onDist fun d => { d with phase, query := none })

/-- A pass ended as deferred, after its cancels (R169). -/
def endDeferral (s : State) : State :=
  withDist (fun d x =>
    let n := d.deferrals + 1
    let y := x.onDist fun z => { z with deferrals := n, query := none }
    if x.ie.params.maxDeferrals < n ∧ !x.ie.params.forceAfter then endDist .aborted .deferred y
    else
      y.onDist fun z =>
        { z with stage := .waiting (x.tb.lt + BitVec.ofNat 48 (x.ie.params.interval * 60000000)) }) s

/-- The next CANCEL of a deferred pass, or its end (R169). -/
def cancelNext (s : State) : State :=
  withDist (fun d x =>
    match nextTarget (fun t => t.st = .accepted) 0 d with
    | some (i, _) => sendTo i .cancel x
    | none => endDeferral x) s

/-- A pass ends as deferred (R169). -/
def deferPass (node : Nat) (why : DeferReason) (s : State) : State :=
  cancelNext ((raiseImage (.proposalDeferred node why)
    (s.countIe fun k => { k with deferrals := satInc k.deferrals })).onDist fun d =>
      { d with stage := .cancelling, query := none })

/-! ## Proposal passes (R168) -/

/-- The distributor's own slot judged (R168). A DISARMED the judging raises (R162) comes before PROPOSAL_DEFERRED (DESIGN
CHOICE, log 52). -/
def judgeOwn (s : State) : State :=
  withDist (fun d x =>
    let j := judgePropose d.img.id (d.cutover.getD 0) d.forced x
    match j.1 with
    | .accept => j.2.2.onDist fun z => { z with phase := .armed, query := none }
    | .defer => deferPass x.node j.2.1 j.2.2
    | .refused => deferPass x.node .late j.2.2) s

/-- The propose cutoff (R168). -/
def proposeCutoff (d : Dist) (lead : Nat) : Time := d.cutover.getD 0 - BitVec.ofNat 48 (lead * 1000000 / 2)

/-- A PROPOSE to the target at a position, unless MT has reached the cutoff (R168). -/
def proposeTo (i : Nat) (s : State) : State :=
  withDist (fun d x =>
    if reached x.mt (proposeCutoff d x.ie.params.lead) then deferPass x.node .late x else sendTo i .propose x) s

/-- The next PROPOSE of a pass, or its end (R168). -/
def proposeNext (s : State) : State :=
  withDist (fun d x =>
    match nextTarget (fun t => t.st = .verified) 0 d with
    | some (i, _) => proposeTo i x
    | none => judgeOwn x) (s.onDist fun d => { d with stage := .proposing, query := none })

/-- The quiet request of a pass has failed (R168). -/
def quietRefused (st : Option Status) (s : State) : State := proposeNext (raiseImage (.quietRefused st) s)

/-- The cutover of a pass (R168): the first mesh time of count 0 at least `lead` seconds ahead. -/
def chooseCutover (tb : TimeBase) (lead : Nat) : Time :=
  let round := 2 ^ (tb.params.exponent + 6)
  BitVec.ofNat 48 ((tb.mt.toNat + lead * 1000000 + round - 1) / round * round)

/-- A status other than OK for a quiet request refused without a root; which one is a free value (log 9). -/
def noRootStatus (io : Io) : Option Status := statusOf (1 + Config.freeNat io.freeCount % 9)

/-- The root this node follows, or the last root it holds in HOLDOVER (R168). -/
def TimeBase.rootNode (t : TimeBase) : Option Nat :=
  match t.sync with
  | .track | .locked | .holdover => t.followed.map (·.node)
  | _ => none

/-- The quiet cycle of a pass asked for (R168). -/
def askQuiet (c : Time) (s : State) : State :=
  if s.tb.sync = .root then
    let r := judgeQuiet c s.tb
    let s1 := s.onTb fun _ => r.2
    if r.1 = .ok then proposeNext s1 else quietRefused (some r.1) s1
  else
    match s.tb.rootNode with
    | some n => sendQuery (.quiet n) s
    | none => quietRefused (noRootStatus s.io) (s.onIo Io.bumpFree)

/-- A proposal pass begins (R168, R169). -/
def beginPass (s : State) : State :=
  let c := chooseCutover s.tb s.ie.params.lead
  askQuiet c (s.onDist fun d =>
    { d with
      phase := .propose
      cutover := some c
      forced := s.ie.params.maxDeferrals < d.deferrals
      stage := .asking
      quietRetries := 0
      query := none })

/-! ## The phases before it (R166, R167) -/

/-- The next VERIFY QUERY, or the end of the VERIFY phase (R167). -/
def verifyNext (s : State) : State :=
  withDist (fun d x =>
    match nextTarget (fun t => t.st = .complete) 0 d with
    | some (i, _) => sendTo i .verify (x.onDist (Dist.onTarget i fun t => { t with st := .verifying }))
    | none => beginPass x) (s.onDist fun d => { d with phase := .verify, query := none })

/-- TARGET_LOST raised for each node of a list, in its order (DESIGN CHOICE, log 48). -/
def loseTargets (nodes : List Nat) (p : Phase) (s : State) : State :=
  nodes.foldl (fun x n => raiseImage (.targetLost n p) x) s

/-- The end of a POLL phase (R167). TARGET_LOST comes before the next phase places its query (DESIGN CHOICE, log 52). -/
def endPoll (s : State) : State :=
  withDist (fun d x =>
    let missing := (d.targets.filter fun t => t.st = .missing).map (·.node)
    if missing.isEmpty then verifyNext x
    else if x.ie.params.roundsMax ≤ d.round then
      verifyNext (loseTargets missing .poll (x.onDist fun z =>
        { z with targets := z.targets.map fun t => if t.st = .missing then { t with st := .failed } else t }))
    else x.onDist fun z => { z with phase := .resend, query := none }) s

/-- The next target polled, from a position on, or the end of the POLL phase (R167). -/
def pollNext (start : Nat) (s : State) : State :=
  withDist (fun d x =>
    match nextTarget (fun t => t.st = .ready || t.st = .missing) start d with
    | some (i, _) => sendTo i (.map 0) (x.onDist (Dist.onTarget i fun t => { t with missing := 0 }))
    | none => endPoll x) (s.onDist fun d => { d with phase := .poll, query := none })

/-- The next ANNOUNCE, or the end of the ANNOUNCE phase (R166). -/
def announceNext (s : State) : State :=
  withDist (fun d x =>
    match nextTarget (fun t => t.st = .pending) 0 d with
    | some (i, _) => sendTo i .announce x
    | none =>
      if d.targets.any fun t => t.st = .ready then x.onDist fun z => { z with phase := .stream } else beginPass x)
    (s.onDist fun d => { d with phase := .announce, query := none })

/-! ## Replies (R165 to R169) -/

/-- A reply to the outstanding query of a kind, or one counted LATE_REPLIES (R165). -/
def takeReply (query : Nat) (answers : QueryKind → Bool) (f : Dist → QueryKind → State → State) (s : State) : State :=
  let late := s.countIe fun k => { k with lateReplies := satInc k.lateReplies }
  match s.ie.dist with
  | some d =>
    match d.query with
    | some q => if q.num = query && answers q.kind then f d q.kind (endQuery s) else late
    | none => late
  | none => late

/-- The target at the cursor takes a state by a taken reply, which clears its retries used (R165). -/
def settle (st : TargetState) (s : State) : State :=
  s.onDist fun d => d.onTarget d.cursor fun t => { t with st, retries := 0 }

/-- An ANNOUNCE REPLY (R166). -/
def takeAnnounceReply (query : Nat) (r : AnnounceResult) (s : State) : State :=
  takeReply query (· = .announce) (fun _ _ x =>
    announceNext (settle (if r = .ready then .ready else .refused) x)) s

/-- The resend set with the blocks of a range set. -/
def setRange (r : Nat × Nat) (l : List Bool) : List Bool := l.mapIdx fun i b => b || (r.1 ≤ i && i < r.1 + r.2)

/-- The number of blocks in a report. -/
def reportBlocks (m : MapContent) : Nat := (m.ranges.map (·.2)).sum

/-- A MAP REPORT merged into the record (R167). -/
def mergeReport (m : MapContent) (d : Dist) : Dist :=
  { d with resend := m.ranges.foldl (fun l r => setRange r l) d.resend }.onTarget d.cursor fun t =>
    { t with missing := t.missing + reportBlocks m, retries := 0 }

/-- The state of a target at its last report of a round (R167). A last report RECEIVING without ranges, after reports of the
round that named missing blocks, makes it MISSING (DESIGN CHOICE, log 43). -/
def polledState (st : MapStatus) (missing : Nat) : TargetState :=
  match st with
  | .none => .failed
  | .complete => .complete
  | .receiving => if 0 < missing then .missing else .complete

/-- The target at the cursor takes its state from its last report of the round. -/
def settlePolled (st : MapStatus) (s : State) : State :=
  s.onDist fun d => d.onTarget d.cursor fun t => { t with st := polledState st t.missing }

/-- A MAP REPORT (R167). -/
def takeMapReport (query : Nat) (m : MapContent) (s : State) : State :=
  takeReply query (fun k => match k with
      | .map _ => true
      | _ => false) (fun d _ x =>
    let y := x.onDist (mergeReport m)
    match m.more, m.ranges.getLast? with
    | true, some r => sendQuery (.map ((r.1 + r.2) % 65536)) y
    | _, _ => pollNext (d.cursor + 1) (settlePolled m.status y)) s

/-- A VERIFY REPORT (R167). -/
def takeVerifyReport (query : Nat) (isMatch : Bool) (s : State) : State :=
  takeReply query (· = .verify) (fun _ _ x => verifyNext (settle (if isMatch then .verified else .failed) x)) s

/-- A PROPOSE REPLY (R168). -/
def takeProposeReply (query : Nat) (r : ProposeResult) (why : DeferReason) (s : State) : State :=
  takeReply query (· = .propose) (fun d _ x =>
    match r with
    | .accept => proposeNext (settle .accepted x)
    | .refused => proposeNext (settle .refused x)
    | .defer => deferPass (d.nodeAt d.cursor) why (settle .verified x)) s

/-- A CANCEL REPLY (R169). -/
def takeCancelReply (query : Nat) (cancelled : Bool) (s : State) : State :=
  takeReply query (· = .cancel) (fun _ _ x => cancelNext (settle (if cancelled then .verified else .refused) x)) s

/-- A QUIET REPLY (R168). -/
def takeQuietReply (query : Nat) (st : Status) (s : State) : State :=
  takeReply query (fun k => match k with
      | .quiet _ => true
      | _ => false) (fun _ _ x => if st = .ok then proposeNext x else quietRefused (some st) x) s

/-! ## Timeouts (R165, R168, R169) -/

/-- The same query sent again (R165); a PROPOSE passes the cutoff test again (R168). -/
def resendQuery (d : Dist) (k : QueryKind) (s : State) : State :=
  match k with
  | .propose => proposeTo d.cursor s
  | _ => sendQuery k s

/-- What follows a target that is lost (R165). -/
def afterLost (d : Dist) (k : QueryKind) (s : State) : State :=
  match k with
  | .announce => announceNext s
  | .map _ => pollNext (d.cursor + 1) s
  | .verify => verifyNext s
  | .propose => proposeNext s
  | .cancel => cancelNext s
  | .quiet _ => s

/-- The target at the cursor is lost (R165): it is UNREACHABLE, and its retries used stay, since only a taken reply clears
them. A lost cancel raises CANCEL_LOST as well (R169). The events, with their NOTICEs, come before the phase's next query is
placed (DESIGN CHOICE, log 52). -/
def loseTarget (d : Dist) (k : QueryKind) (s : State) : State :=
  let n := d.nodeAt d.cursor
  let s1 := raiseImage (.targetLost n d.phase) (s.onDist (Dist.onTarget d.cursor fun t => { t with st := .unreachable }))
  afterLost d k (if k = .cancel then raiseImage (.cancelLost n (d.cutover.getD 0)) s1 else s1)

/-- The outstanding query times out (R165). The retries used are compared with the parameter as it stands at the timeout
(R164; DESIGN CHOICE, log 43). -/
def timeoutQuery (d : Dist) (k : QueryKind) (s : State) : State :=
  let s1 := endQuery (s.countIe fun c => { c with queryTimeouts := satInc c.queryTimeouts })
  let limit := k.retries s.ie.params
  match k with
  | .quiet _ =>
    if d.quietRetries < limit then sendQuery k (s1.onDist fun z => { z with quietRetries := z.quietRetries + 1 })
    else quietRefused none s1
  | _ =>
    match d.targets[d.cursor]? with
    | some t =>
      if t.retries < limit then
        resendQuery d k (s1.onDist (Dist.onTarget d.cursor fun x => { x with retries := x.retries + 1 }))
      else loseTarget d k s1
    | none => s1

/-- Local time observed at the outstanding query (R165). -/
def observeTimeout (s : State) : State :=
  match s.ie.dist with
  | some d =>
    match d.query with
    | some q => if reached s.tb.lt q.deadline then timeoutQuery d q.kind s else s
    | none => s
  | none => s

/-- Local time observed at the deferral interval (R169). -/
def observeInterval (s : State) : State :=
  withDist (fun d x =>
    match d.phase, d.stage with
    | .propose, .waiting wake => if reached x.tb.lt wake then beginPass x else x
    | _, _ => x) s

/-- Mesh time observed in the ARMED phase (R169). -/
def observeDone (s : State) : State :=
  withDist (fun d x =>
    match d.phase, d.cutover with
    | .armed, some c => if reached x.mt c then endDist .done .done x else x
    | _, _ => x) s

/-! ## Blocks sent (R166, R167) -/

/-- Whether a transmitter holds a block frame. -/
def Tx.hasBlock : Tx → Bool
  | .busy f => f.isBlock
  | _ => false

/-- The distribution block frames of the FP3 class 3 queue, the transmitter included (R68). -/
def Io.blockFrames (io : Io) : Nat :=
  (((io.port .fp3).queue.get 3).filter QFrame.isBlock).length + (io.port .fp3).tx.hasBlock.toNat

/-- The block a distribution has to send next (R166, R167). -/
def Dist.wanted (d : Dist) : Option Nat :=
  match d.phase with
  | .stream => if d.streamPos < d.img.count then some d.streamPos else none
  | .resend => d.resend.findIdx? id
  | _ => none

/-- A block has been placed or passed over (R166, R167). -/
def Dist.pass (i : Nat) (d : Dist) : Dist :=
  match d.phase with
  | .stream => { d with streamPos := i + 1 }
  | .resend => { d with resend := d.resend.set i false }
  | _ => d

/-- The block frames of STREAM or RESEND are gone (R166, R167). -/
def observeDrained (s : State) : State :=
  withDist (fun d x =>
    if x.io.blockFrames = 0 ∧ d.wanted = none then
      match d.phase with
      | .stream => pollNext 0 x
      | .resend => pollNext 0 (x.onDist fun z => { z with round := z.round + 1 })
      | _ => x
    else x) s

/-- The pending slot operation begins (R152). -/
def startOp (o : SlotOp) (s : State) : State :=
  s.onIe fun e =>
    { e with
      pendingOp := none
      inFlight := some (match o with
        | .erase => .erase e.stagingNo e.staging.load
        | .verify => .verify e.stagingNo e.staging.load) }

/-- The write of the head entry begins (R152, R154). -/
def startWrite (w : WriteEntry) (rest : List WriteEntry) (s : State) : State :=
  s.onIe fun e =>
    { e with
      writeQ := { w with begun := true } :: rest
      inFlight := some (.write e.stagingNo w.load w.index) }

/-- A block read begins, or its block is passed over for want of cells (R166). It reads the slot that is the staging slot at
that moment, also after a switch of this node's own slots within STREAM or RESEND (DESIGN CHOICE, log 61). -/
def startRead (i : Nat) (s : State) : State :=
  let r := allocMgmt .fp3 .image 5 s.io
  let s1 := s.onIo fun _ => r.2
  if r.1 then s1.onIe fun e => { e with inFlight := some (.blockRead e.stagingNo e.staging.load i 5 true) }
  else s1.onDist (Dist.pass i)

/-- The flash port begins its next operation if it is idle (R152). -/
def startFlash (s : State) : State :=
  match s.ie.inFlight, s.ie.pendingOp, s.ie.writeQ with
  | some _, _, _ => s
  | none, some o, _ => startOp o s
  | none, none, w :: rest => startWrite w rest s
  | none, none, [] =>
    withDist (fun d x =>
      match d.wanted with
      | some i => if x.io.blockFrames < 4 then startRead i x else x
      | none => x) s

/-- An operation in flight after the distribution that may have wanted it has ended. -/
def FlashOp.orphan : FlashOp → FlashOp
  | .blockRead n load i cells _ => .blockRead n load i cells false
  | o => o

/-- A distribution aborted, with one CANCEL to each ACCEPTED target (R170). The CANCELs are placed in list order, and
before DISTRIBUTION_ENDED asks for its NOTICE's cells (DESIGN CHOICE, log 52). -/
def abortDist (c : EndCause) (s : State) : State :=
  withDist (fun d x =>
    let s1 := d.targets.foldl (fun y t => if t.st = .accepted then placeQuery t.node d.img.id .cancel y else y) x
    let s2 :=
      if s1.ie.staging.holds d.img.id then
        s1.onStaging fun r => match r.st with
          | .armed _ => { r with st := .verified }
          | _ => r
      else s1
    endDist .aborted c (s2.onIe fun e => { e with inFlight := e.inFlight.map FlashOp.orphan })) s

/-- The frame of a block read (R166). -/
def blockFrame (own : Nat) (id i n : Nat) (data : List Byte) : QFrame where
  hdr := some { src := own, dst := 0 }
  content := .image { query := 0, id, body := .block i (crc16 data) data }
  cls := 3
  cells := n

/-- A block read completes (R166). At an error the cells of the read are freed before DISTRIBUTION_ENDED is raised (DESIGN
CHOICE, log 47). -/
def readDone (success : Bool) (data : List Byte) (s : State) : State :=
  match s.ie.inFlight with
  | some (.blockRead _ _ i n live) =>
    let s1 := s.onIe fun e => { e with inFlight := none }
    if live && s.ie.running then
      if success then
        withDist (fun d x =>
          let r := placeClass true .fp3 (blockFrame x.node d.img.id i n data) x.io
          let y := (x.onIo fun _ => r.2).onDist (Dist.pass i)
          if r.1 then y.countIe fun k => { k with blocksSent := satInc k.blocksSent } else y) s1
      else abortDist .read (s1.onIo (freeCells n))
    else s1.onIo (freeCells n)
  | _ => s

/-! ## Requests (R164, R170) -/

/-- Whether a target list is malformed (R164). -/
def badTargets (own : Nat) (l : List Nat) : Bool :=
  7 < l.length || l.any (fun n => n = 0 || 8 < n || n = own) || !(l.eraseDups.length = l.length)

/-- DISTRIBUTE START (R164). A request that meets several refusals is answered MALFORMED first, then WRONG_STATE, then
NOT_FOUND (DESIGN CHOICE, log 53). -/
def distributeStart (id : Nat) (replace : Bool) (targets : List Nat) (s : State) : Answer :=
  if badTargets s.node targets then refuse .malformed s
  else if s.ie.running then refuse .wrongState s
  else
    match s.ie.staging.held with
    | some r =>
      if r.st ≠ .verified then refuse .wrongState s
      else if r.img.id ≠ id then refuse .notFound s
      else
        ok (announceNext (s.onIe fun e =>
          { e with dist := some {
              phase := .announce
              img := r.img
              replace
              targets := targets.map fun n => { node := n }
              resend := List.replicate r.img.count false } }))
    | none => refuse .wrongState s

/-- DISTRIBUTE ABORT (R170). -/
def distributeAbort (s : State) : Answer := if s.ie.running then ok (abortDist .abort s) else refuse .wrongState s

/-- The timeout of a written pair, clamped, or the old one. -/
def pairTimeout (lo hi old : Nat) (p : Option (Nat × Nat)) : Nat := (p.map fun x => clamp lo hi x.1).getD old

/-- The retries of a written pair, clamped, or the old ones. -/
def pairRetries (hi old : Nat) (p : Option (Nat × Nat)) : Nat := (p.map fun x => clamp 0 hi x.2).getD old

/-- SET IMAGE PARAMETERS (R164, section 8.5). -/
def writeImageParams (f : ImageParamFields) (p : ImageParams) : ImageParams where
  announceTimeout := pairTimeout 10000 2000000 p.announceTimeout f.announce
  announceRetries := pairRetries 5 p.announceRetries f.announce
  mapTimeout := pairTimeout 10000 2000000 p.mapTimeout f.map
  mapRetries := pairRetries 5 p.mapRetries f.map
  verifyTimeout := pairTimeout 100000 60000000 p.verifyTimeout f.verify
  verifyRetries := pairRetries 3 p.verifyRetries f.verify
  proposeTimeout := pairTimeout 10000 2000000 p.proposeTimeout f.propose
  proposeRetries := pairRetries 5 p.proposeRetries f.propose
  roundsMax := (f.roundsMax.map (clamp 1 32)).getD p.roundsMax
  interval := (f.interval.map (clamp 1 240)).getD p.interval
  maxDeferrals := (f.maxDeferrals.map (clamp 0 255)).getD p.maxDeferrals
  forceAfter := f.forceAfter.getD p.forceAfter
  lead := (f.lead.map (clamp 1 60)).getD p.lead

/-! ## RESTART (R172) -/

/-- The distribution record after RESTART: a running one is ABORTED and its query forgotten. -/
def Dist.restart (d : Dist) : Dist :=
  { d with phase := if d.phase = .done then .done else .aborted, query := none }

def ImageEngine.restart (e : ImageEngine) : ImageEngine :=
  { e with
    writeQ := []
    dist := e.dist.map Dist.restart
    inFlight := e.inFlight.map FlashOp.orphan
    counters := {} }

/-! ## Meanings -/

def execAnnounceReply (query : Nat) (result : AnnounceResult) (s : State) : Host.Outcome State Fault Refusal :=
  .next (takeImage (.announceReply result) (takeAnnounceReply query result) s)

def execMapReport (query : Nat) (report : MapContent) (s : State) : Host.Outcome State Fault Refusal :=
  .next (takeImage (.mapReport report) (takeMapReport query report) s)

def execVerifyReport (query : Nat) (isMatch : Bool) (s : State) : Host.Outcome State Fault Refusal :=
  .next (takeImage (.verifyReport isMatch) (takeVerifyReport query isMatch) s)

def execProposeReply (query : Nat) (result : ProposeResult) (reason : DeferReason) (s : State) :
    Host.Outcome State Fault Refusal :=
  .next (takeImage (.proposeReply result reason) (takeProposeReply query result reason) s)

def execCancelReply (query : Nat) (cancelled : Bool) (s : State) : Host.Outcome State Fault Refusal :=
  .next (takeImage (.cancelReply cancelled) (takeCancelReply query cancelled) s)

def execQuietReply (query : Nat) (status : Status) (s : State) : Host.Outcome State Fault Refusal :=
  .next (takeImage (.quietReply status) (takeQuietReply query status) s)

/-- LT observed at the outstanding query (R165). -/
def execQueryTimeout (s : State) : Host.Outcome State Fault Refusal := .next (observeTimeout s)

/-- LT observed at the end of a deferral interval (R169). -/
def execDeferralIntervalEnd (s : State) : Host.Outcome State Fault Refusal := .next (observeInterval s)

/-- MT observed in the ARMED phase (R169). -/
def execDistributionDone (s : State) : Host.Outcome State Fault Refusal := .next (observeDone s)

/-- The queue and the transmitter observed when every block has been placed or passed over (R166, R167). -/
def execStreamDrained (s : State) : Host.Outcome State Fault Refusal := .next (observeDrained s)

def execFlashOperationStart (s : State) : Host.Outcome State Fault Refusal := .next (startFlash s)

def execBlockReadComplete (success : Bool) (data : List Byte) (s : State) : Host.Outcome State Fault Refusal :=
  .next (readDone success data s)

def execSetImageParameters (h : ReqHead) (f : ImageParamFields) (s : State) : Host.Outcome State Fault Refusal :=
  .next (request h 45 (fun x => ok (x.onIe fun e => { e with params := writeImageParams f e.params })) s)

def execDistributeStart (h : ReqHead) (id : Nat) (replace : Bool) (targets : List Nat) (s : State) :
    Host.Outcome State Fault Refusal :=
  .next (request h 46 (distributeStart id replace targets) s)

def execDistributeAbort (h : ReqHead) (s : State) : Host.Outcome State Fault Refusal :=
  .next (request h 47 distributeAbort s)

end Sys2Proof.Machine
end

