-- ==== Sys2Proof/Machine/Control.lean ====
section
/-! DEFINITION. The Control Unit (chapter 9): status and counters of every block, event enables, acknowledgements,
admission, the registration, RESTART, and pin reset. -/

namespace Sys2Proof.Machine

/-! ## Status of each block (R179) -/

/-- READ STATUS of the Time Base (section 1.12). -/
def statusTb (s : State) : List Byte :=
  let t := s.tb
  be 1 (syncCode t.sync) ++ optBytes (fun (r : RootRef) => be 1 r.node ++ be 1 r.prio) t.followed ++ beTime t.mt ++
    beTime t.offset ++ be 3 t.n ++ be 3 t.nBase ++ be 2 t.d ++ flagByte t.rateAnchor.isSome ++ beTime t.cal.anchor ++
    be 3 t.cal.weekSec ++ be 1 t.cal.gen ++ flagByte t.cal.valid ++ flagByte t.cal.unmatched ++
    flagByte t.preset.isSome ++ listBytes beTime t.quietList ++ optBytes beTime t.quietMark ++ be 2 t.consec ++
    be 1 t.listenWatch ++ be 1 t.beaconWatch ++ be 1 t.params.priority ++ be 1 t.params.rootWatch ++
    be 1 t.params.beaconWatch ++ be 2 t.params.lockCount ++ be 1 t.params.lockWindow ++ be 1 t.params.exponent

/-- The cells a transmitter's frame holds. -/
def Tx.cells : Tx → Nat
  | .busy f => f.cells
  | _ => 0

/-- The cells held by the frames in a port's queues and its transmitter. -/
def PortEgress.cells (e : PortEgress) : Nat :=
  queueCells e.mgmt + (e.queue.toList.map queueCells).sum + e.tx.cells

/-- The cells held by the beacon position, which counts among the queues of FP3 (R29). -/
def Egress.beaconCells (e : Egress) : Nat := queueCells e.beaconPos.toList

/-- READ STATUS of the Frame Path (section 2.8). The role is 1 for the gateway and 0 for a satellite (DESIGN CHOICE,
log 39). -/
def statusFp (s : State) : List Byte :=
  let p := s.io.es.ports
  flagByte s.io.fp.gateway ++ be 1 s.io.fp.nodeId ++ be 1 s.io.fp.gatewayId ++ be 2 s.io.fp.freeCells ++
    be 2 s.io.fp.lowestFree ++ be 2 p.fp0.cells ++ be 2 p.fp1.cells ++ be 2 p.fp2.cells ++
    be 2 (p.fp3.cells + s.io.es.beaconCells)

/-- The number of flows that satisfy a condition. -/
def countFlows (p : Flow → Bool) (c : Classifier) : Nat := ((c.flows.filterMap id).filter p).length

/-- READ STATUS of the Classifier (R65). -/
def statusCl (s : State) : List Byte :=
  let p := s.cl.params
  be 2 (countFlows (fun _ => true) s.cl) ++ be 2 (countFlows (·.pinned) s.cl) ++ be 2 (countFlows (·.detected) s.cl) ++
    flagByte s.nodeGameActive ++ be 2 p.pmin ++ be 2 p.pmax ++ be 2 p.smax ++ be 1 p.tp ++ be 1 p.idle

/-- Whether a transmitter is busy, and the kind of its frame. A slot given up by RESTART, which is not free, is reported
busy with the kind of the frame given up (DESIGN CHOICE, log 39). -/
def txBytes : Tx → List Byte
  | .free => flagByte false
  | .busy f => flagByte true ++ be 1 (kindCode f.kind)
  | .givenUp k => flagByte true ++ be 1 (kindCode k)

/-- One class of a port in READ STATUS. -/
def classBytes (e : PortEgress) (k : Nat) : List Byte :=
  let q := e.inUse.get k
  beInt 3 (e.credit.get k) ++ be 2 (e.limit.get k) ++ be 2 q.quantum ++ be 3 q.cap ++ flagByte q.borrow

/-- One port in READ STATUS of the Egress Service (section 4.7). -/
def portBytes (e : PortEgress) : List Byte :=
  holdBytes e.mgmt ++ (e.queue.toList.map holdBytes).flatten ++ ([0, 1, 2, 3].map (classBytes e)).flatten ++ txBytes e.tx

/-- What READ STATUS of the Egress Service adds for FP3. -/
def backhaulBytes (s : State) : List Byte :=
  let e := s.io.es
  flagByte e.beaconPos.isSome ++
    (match e.inEffect s.tb with
     | .window i => flagByte true ++ be 2 i
     | .gap => flagByte false) ++
    flagByte s.tb.quietNow ++ optBytes (fun m => be 1 (windowMethodCode m)) e.pending ++ be 1 e.overhead ++ be 1 e.guardTime

/-- READ STATUS of the Egress Service (section 4.7). -/
def statusEs (s : State) : List (List Byte) := s.io.es.ports.toList.map portBytes ++ [backhaulBytes s]

/-- READ STATUS of the Station Unit (R100). The number of station-less stations refused is the counter STATION_FULL, which
RESTART clears as CLEAR COUNTERS does (DESIGN CHOICE, log 39). -/
def statusSu (s : State) : List Byte :=
  let n (k : Nat) : List Byte := be 2 (countEntries (fun e => stCode e.st = k) s.su)
  let p := s.su.params
  n 1 ++ n 2 ++ n 3 ++ n 4 ++ be 4 s.su.counters.stationFull ++ be 1 s.su.scanPos ++ beInt 1 p.hyst ++ beInt 1 p.thresh ++
    beInt 1 p.gameHyst ++ beInt 1 p.gameThr ++ be 1 p.dwell ++ be 1 p.holdOff

/-- READ STATUS of the Handoff Unit (R125). -/
def statusHu (s : State) : List Byte :=
  let n (k : Nat) : List Byte :=
    be 2 ((s.hu.slots.filterMap (·.ctx)).filter fun c => ctxStateCode c.st = k).length
  n 1 ++ n 2 ++ n 3 ++ n 4 ++ n 5 ++ be 2 s.hu.holdCells ++ be 1 s.hu.params.claimDelay ++ be 1 s.hu.params.linger ++
    be 3 s.hu.params.tctx

/-- READ STATUS of the Schedule Engine (R149). -/
def statusSe (s : State) : List Byte :=
  let n (v : EffState) : List Byte := be 2 (countEntries (fun e => e.eff = some v) s.su)
  beTime s.se.ts ++ optBytes (be 2) s.se.minute ++ optBytes (fun m => be 1 (schedMethodCode m)) s.se.pending ++ n .allow ++
    n .metered ++ n .limit ++ n .block ++ be 3 s.se.threshold

/-- The cutover of a slot that has one. -/
def SlotState.cutover : SlotState → Option Time
  | .armed c => some c
  | .switched c => some c
  | _ => none

/-- One slot in READ STATUS (section 8.6). -/
def slotBytes (x : Slot) : List Byte :=
  be 1 (slotStateCode x.state) ++
    (match x.held with
     | some r =>
       be 2 r.img.id ++ be 4 r.img.version ++ be 2 r.img.count ++ be 4 r.img.crc ++ be 2 r.received ++ be 2 r.failures
     | none => []) ++
    be 1 x.load ++
    match x.state.bind SlotState.cutover with
    | some c => beTime c
    | none => []

/-- The staging slot's missing ranges, as a MAP REPORT from index 0 (section 8.6). -/
def stagingReport (e : ImageEngine) : MapContent :=
  mapReportOf e.staging (match e.staging.held with
    | some r => r.img.id
    | none => 0) 0

/-- An operation in flight: its kind numbered as section 8.2 tables them, then what it works on (log 8). -/
def opBytes : FlashOp → List Byte
  | .erase n load => be 1 1 ++ be 1 n.toNat ++ be 1 load
  | .write n load i => be 1 2 ++ be 1 n.toNat ++ be 1 load ++ be 2 i
  | .verify n load => be 1 3 ++ be 1 n.toNat ++ be 1 load
  | .blockRead n load i _ _ => be 1 4 ++ be 1 n.toNat ++ be 1 load ++ be 2 i

/-- The pending slot operation, numbered the same way. -/
def slotOpCode : SlotOp → Nat
  | .erase => 1
  | .verify => 3

def targetBytes (t : Target) : List Byte := be 1 t.node ++ be 1 (targetCode t.st) ++ be 2 t.missing

/-- The outstanding query: its number and its message type (log 8). -/
def queryBytes (d : Dist) (q : Query) : List Byte := be 2 q.num ++ be 1 (imageType (q.kind.body d))

/-- A distribution record in READ STATUS (section 8.6). -/
def distBytes (d : Dist) : List Byte :=
  be 1 (phaseCode d.phase) ++ be 1 d.round ++ be 2 d.deferrals ++ optBytes beTime d.cutover ++ flagByte d.forced ++
    listBytes targetBytes d.targets ++ optBytes (queryBytes d) d.query

def imageParamBytes (p : ImageParams) : List Byte :=
  be 3 p.announceTimeout ++ be 1 p.announceRetries ++ be 3 p.mapTimeout ++ be 1 p.mapRetries ++ be 4 p.verifyTimeout ++
    be 1 p.verifyRetries ++ be 3 p.proposeTimeout ++ be 1 p.proposeRetries ++ be 1 p.roundsMax ++ be 1 p.interval ++
    be 1 p.maxDeferrals ++ flagByte p.forceAfter ++ be 1 p.lead

/-- READ STATUS of the Image Engine (section 8.6). An entry of the write queue is given by its load number and index,
without its 1,024 bytes (DESIGN CHOICE, log 62). -/
def statusIe (s : State) : List Byte :=
  let e := s.ie
  be 1 e.active.toNat ++ optBytes (fun (b : Bool) => be 1 b.toNat) e.switchOut ++ slotBytes e.slot0 ++ slotBytes e.slot1 ++
    mapBytes (stagingReport e) ++ listBytes (fun (w : WriteEntry) => be 1 w.load ++ be 2 w.index) e.writeQ ++
    optBytes opBytes e.inFlight ++ optBytes (fun o => be 1 (slotOpCode o)) e.pendingOp ++ optBytes distBytes e.dist ++
    imageParamBytes e.params

/-- The first detail of an event record: event code, detail length, detail (log 8). -/
def detailBytes (e : Event) : List Byte := be 1 (eventCode e).2 ++ be 1 (eventDetail e).length ++ eventDetail e

def eventRecBytes (r : EventRec) : List Byte :=
  flagByte r.pending ++ flagByte r.enable ++ optBytes detailBytes r.first ++ be 2 r.count

/-- READ STATUS of the Control Unit (R179). -/
def statusCu (s : State) : List Byte :=
  let c := s.io.cu
  (c.admission.toList.map fun a => be 1 (admissionCode a)).flatten ++
    optBytes (fun (r : Registration) => be 1 r.node ++ be 1 (portNum r.port) ++ be 6 r.addr.toNat) c.reg ++
    (Category.all.map fun k => eventRecBytes (c.events.get k)).flatten ++ be 2 c.queue.length

/-- READ STATUS (R179): the records of the block a block id names. -/
def readStatus (block : Nat) (s : State) : Answer :=
  let give (l : List (List Byte)) : Answer := { state := s, status := .ok, records := l }
  match block with
  | 1 => give [statusTb s]
  | 2 => give [statusFp s]
  | 3 => give [statusCl s]
  | 4 => give (statusEs s)
  | 5 => give [statusSu s]
  | 6 => give [statusHu s]
  | 7 => give [statusSe s]
  | 8 => give [statusIe s]
  | 9 => give [statusCu s]
  | _ => refuse .malformed s

/-! ## Counters (R180) -/

/-- The counters of a block, in the order of its chapter's table, per port where it is kept so. -/
def countersOf (block : Nat) (s : State) : Option (List Nat) :=
  match block with
  | 1 => let c := s.tb.counters
         some [c.beaconsSent, c.beaconsReplaced, c.beaconsAccepted, c.beaconsIgnored, c.rootConflict, c.rateUpdates,
           c.rateSkipped]
  | 2 => let c := s.io.fp.counters
         some (c.framesIn.toList ++ c.rxError.toList ++ c.lengthError.toList ++ c.poolFull.toList ++
           c.malformedHeader.toList ++ c.unknownKind.toList ++ c.wrongPortKind.toList ++ [c.notForNode, c.noRoute])
  | 3 => let c := s.cl.counters
         some [c.flowsCreated, c.flowsAged, c.flowsEvicted, c.flowsRemoved, c.flowsCleared, c.flowFull, c.rulesOnly,
           c.gameStarts, c.gameEnds, c.hintFlows, c.hintsMerged, c.hintsRefused]
  | 4 => let p := s.io.es.ports.map (·.counters)
         some ((p.map (·.framesOut)).toList ++ (p.map (·.txFail)).toList ++ (p.map (·.queueFull)).toList ++
           (p.map (·.mgmtFull)).toList ++ (p.map (·.oversize)).toList ++ (p.map (·.borrowed)).toList)
  | 5 => let c := s.su.counters
         some [c.associations, c.implicitAssociations, c.disassociations, c.eventsIgnored, c.heardDropped, c.stationFull,
           c.stationsEvicted, c.detachedPurged, c.stationsCleared, c.hearingsSent, c.hearingsReceived, c.hearingsIgnored,
           c.steersSent]
  | 6 => let c := s.hu.counters
         some [c.claimsSent, c.claimsReceived, c.claimsIgnored, c.resumes, c.departures, c.conversions,
           c.arrivalsCompleted, c.contextsLost, c.contextFull, c.earlyReleases, c.releasesSent, c.releasesReceived,
           c.lateRelease, c.secondRelease, c.fwdSent, c.lateFwd, c.holdDrop]
  | 7 => let c := s.se.counters
         some (c.scheduleDrop.toList ++ [c.stateChanges, c.minuteEvents, c.jumps, c.minutesCharged, c.refills,
           c.fallbacks])
  | 8 => let c := s.ie.counters
         some [c.badBlock, c.blocksWritten, c.writeFailures, c.writeQueueFull, c.blocksIgnored, c.staleCompletions,
           c.blocksSent, c.queriesSent, c.queryTimeouts, c.lateReplies, c.deferrals]
  | 9 => let c := s.io.cu.counters
         some [c.requestsExecuted, c.requestsDenied, c.controlOverflow, c.controlMalformed, c.responsesLost,
           c.noticesSent, c.noticesLost]
  | _ => none

/-- READ COUNTERS (R180): each counter takes 4 bytes (10.6). -/
def readCounters (block : Nat) (s : State) : Answer :=
  match countersOf block s with
  | some l => { state := s, status := .ok, records := l.map (be 4) }
  | none => refuse .malformed s

/-- A port's Egress counters cleared. -/
def PortEgress.clearCounters (e : PortEgress) : PortEgress := { e with counters := {} }

/-- The counters of the Frame Path, the Egress Service and the Control Unit cleared, and the lowest free count set
(R180, R31). -/
def Io.clearCounters (io : Io) : Io :=
  { io with
    fp := { io.fp with lowestFree := Config.poolCells, counters := {} }
    es := { io.es with ports := io.es.ports.map PortEgress.clearCounters }
    cu := { io.cu with counters := {} } }

/-- CLEAR COUNTERS (R180). -/
def clearCounters (s : State) : State :=
  { s with
    io := s.io.clearCounters
    tb := { s.tb with counters := {} }
    cl := { s.cl with counters := {} }
    su := { s.su with counters := {} }
    hu := { s.hu with counters := {} }
    se := { s.se with counters := {} }
    ie := { s.ie with counters := {} } }

/-! ## Events (R176 to R178) -/

/-- Whether a mask of categories names one: bit `code - 1` (log 8). -/
def inMask (mask : Nat) (c : Category) : Bool := mask.testBit (categoryCode c - 1)

/-- The nine event records changed, each by its category. -/
def mapEvents (f : Category → EventRec → EventRec) (io : Io) : Io :=
  io.onCu fun k =>
    { k with events :=
        let e := k.events
        ⟨f .sync e.sync, f .station e.station, f .handoff e.handoff, f .schedule e.schedule, f .flow e.flow,
          f .backhaul e.backhaul, f .buffer e.buffer, f .image e.image, f .control e.control⟩ }

/-- The categories that satisfy a condition send their notices, in the order of their codes. -/
def sendNotices (p : Category → Bool) (io : Io) : Io := (Category.all.filter p).foldl (fun x c => sendNotice c x) io

/-- SET EVENT ENABLES (R178): a category that is pending and becomes enabled sends its notice (R177). -/
def setEnables (mask : Nat) (s : State) : State :=
  let becomes (c : Category) : Bool :=
    let r := s.io.cu.events.get c
    inMask mask c && !r.enable && r.pending
  s.onIo fun io => sendNotices becomes (mapEvents (fun c r => { r with enable := inMask mask c }) io)

/-- ACK EVENTS (R178). -/
def ackEvents (mask : Nat) (s : State) : State :=
  s.onIo (mapEvents fun c r => if inMask mask c then { enable := r.enable } else r)

/-- SET ADMISSION (R173). The port is tested before the setting (DESIGN CHOICE, log 44). -/
def setAdmission (port setting : Nat) (s : State) : Answer :=
  match portOf port with
  | none => refuse .notFound s
  | some p =>
    match admissionOf setting with
    | none => refuse .malformed s
    | some a => ok (s.onIo (Io.onCu fun c => { c with admission := c.admission.set p a }))

/-- The registration written, with the notices it brings (R176). -/
def register (r : Registration) (s : State) : State :=
  let due (c : Category) : Bool :=
    let e := s.io.cu.events.get c
    e.pending && e.enable
  s.onIo fun io => sendNotices due (io.onCu fun c => { c with reg := some r })

/-- REGISTER CONTROLLER (R176). -/
def registerController (node port : Nat) (addr : Addr) (s : State) : Answer :=
  if node = 0 then ok (s.onIo (Io.onCu fun c => { c with reg := none }))
  else
    match portOf port with
    | none => refuse .malformed s
    | some p =>
      if p = .fp3 || isGroup addr then refuse .malformed s
      else ok (register { node := clamp 1 8 node, port := p, addr } s)

/-! ## RESTART (R181) -/

/-- The cells of a block read in flight. -/
def ImageEngine.readCells (e : ImageEngine) : Nat :=
  match e.inFlight with
  | some (.blockRead _ _ _ n _) => n
  | _ => 0

/-- The Frame Path after RESTART (R48); `kept` are the cells of a block read in flight. -/
def FramePath.restart (kept : Nat) (f : FramePath) : FramePath :=
  { f with freeCells := Config.poolCells - kept, lowestFree := Config.poolCells, counters := {} }

/-- The Control Unit after RESTART (R178, R181). -/
def ControlUnit.restart (c : ControlUnit) : ControlUnit :=
  { c with
    queue := []
    events :=
      let e := c.events
      let keep (r : EventRec) : EventRec := { enable := r.enable }
      ⟨keep e.sync, keep e.station, keep e.handoff, keep e.schedule, keep e.flow, keep e.backhaul, keep e.buffer,
        keep e.image, keep e.control⟩
    counters := {} }

/-- Every block's own restart (R181, steps 1 to 4). -/
def restartUnits (s : State) : State :=
  { s with
    io := { s.io with fp := s.io.fp.restart s.ie.readCells, es := s.io.es.restart, cu := s.io.cu.restart }
    tb := { s.tb with counters := {} }
    cl := s.cl.restart
    su := s.su.restart
    hu := s.hu.restart
    se := s.se.restart
    ie := s.ie.restart }

/-- RESTART (R181). -/
def restart (s : State) : State := (restartUnits s).onIo (raise (.restarted s.node s.mt))

/-- Pin reset with the straps it samples: everything takes its reset value but the queue of waiting commands, which is
the outside's, and the index of the free values. -/
def pinReset (st : Straps) (s : State) : State :=
  let r := State.pinReset st
  { r with pending := s.pending, io := { r.io with freeCount := s.io.freeCount } }

/-! ## Meanings -/

def execPinReset (straps : Straps) (s : State) : Host.Outcome State Fault Refusal := .next (pinReset straps s)

/-- Answered MALFORMED before any other check (R175). -/
def execUnknownRequestCode (h : ReqHead) (code : Nat) (s : State) : Host.Outcome State Fault Refusal :=
  .next (s.onIo (respond h.tag code .malformed []))

def execReadStatus (h : ReqHead) (block : Nat) (s : State) : Host.Outcome State Fault Refusal :=
  .next (request h 1 (readStatus block) s)

def execReadCounters (h : ReqHead) (block : Nat) (s : State) : Host.Outcome State Fault Refusal :=
  .next (request h 2 (readCounters block) s)

def execClearCounters (h : ReqHead) (s : State) : Host.Outcome State Fault Refusal :=
  .next (request h 3 (fun x => ok (clearCounters x)) s)

def execSetEventEnables (h : ReqHead) (mask : Nat) (s : State) : Host.Outcome State Fault Refusal :=
  .next (request h 9 (fun x => ok (setEnables mask x)) s)

def execAckEvents (h : ReqHead) (mask : Nat) (s : State) : Host.Outcome State Fault Refusal :=
  .next (request h 10 (fun x => ok (ackEvents mask x)) s)

def execSetAdmission (h : ReqHead) (port setting : Nat) (s : State) : Host.Outcome State Fault Refusal :=
  .next (request h 11 (setAdmission port setting) s)

def execRegisterController (h : ReqHead) (node port : Nat) (addr : Addr) (s : State) :
    Host.Outcome State Fault Refusal :=
  .next (request h 12 (registerController node port addr) s)

def execRestart (h : ReqHead) (s : State) : Host.Outcome State Fault Refusal :=
  .next (request h 13 (fun x => ok (restart x)) s)

/-- SET FRAME PATH PARAMETERS (R27). -/
def execSetFramePathParameters (h : ReqHead) (gateway : Nat) (s : State) : Host.Outcome State Fault Refusal :=
  .next (request h 24 (fun x => ok (x.onIo (Io.onFp fun f => { f with gatewayId := clamp 1 8 gateway }))) s)

end Sys2Proof.Machine
end

