-- ==== Sys2Proof/Machine/Arrival.lean ====
section
/-! DEFINITION. A frame as a port delivers it (R28, R32 to R40, R182): the checks of its length, cells and mesh header,
and the block that takes it. The rows for one kind of frame begin where these checks end. -/

namespace Sys2Proof.Machine

/-- The longest frame of a port (R28 check 2). -/
def maxLen (p : Port) : Nat := if p = .fp3 then 1536 else 1518

/-- Whether a frame on FP0 to FP2 carries a mesh header (R32). -/
def isMesh (p : Port) (f : List Byte) : Bool := p = .fp3 || linkType f = meshType

/-- The frame from its mesh header on. -/
def meshPart (p : Port) (f : List Byte) : List Byte := if p = .fp3 then f else f.drop linkLen

/-- The mesh kind code of a frame. -/
def rawKind (p : Port) (f : List Byte) : Nat := (readHdr (meshPart p f)).kind

/-- The shortest frame of a port (R28 check 3): on FP3 the carried link header too, except for a management kind. -/
def minLen (p : Port) (f : List Byte) : Nat :=
  if p = .fp3 then (if 2 ≤ rawKind p f && rawKind p f ≤ 6 then meshLen else meshLen + linkLen)
  else if linkType f = meshType then linkLen + meshLen else linkLen

/-- The kind named when a frame of an unknown kind is refused its cells: a free value (log 9). -/
def someKind (io : Io) : Kind := (kindOf (1 + Config.freeNat io.freeCount % 6)).getD .data

/-- The allocation of an arriving frame (R28 check 4, R29). -/
def allocArrival (p : Port) (f : List Byte) (io : Io) : Bool × Io :=
  if isMesh p f then
    match kindOf (rawKind p f) with
    | some .data => allocData p (cellsFor f.length) io
    | some k => allocMgmt p k (cellsFor f.length) io
    | none => allocMgmt p (someKind io) (cellsFor f.length) io.bumpFree
  else allocData p (cellsFor f.length) io

/-- A frame counted UNKNOWN_KIND (R32). -/
def countUnknown (p : Port) : Io → Io := countFp fun c => { c with unknownKind := c.unknownKind.inc p }

/-- The header of a frame of any kind but DATA. -/
def hdrOf (h : RawHdr) : MeshHdr := { fwd := h.fwd, cls := h.cls, src := h.src, dst := h.dst, station := h.station }

/-- A frame dropped, its cells freed and the drop counted. -/
def dropArrival (n : Nat) (count : Io → Io) (s : State) : State := s.onIo fun io => count (freeCells n io)

/-- A BEACON on FP3 (R35, R182). -/
def arriveBeacon (payload : List Byte) (stamp : Option Time) (n : Nat) (s : State) : State :=
  match readBeacon payload, stamp with
  | some b, some cap => takeBeacon b cap (s.onIo (freeCells n))
  | _, _ => dropArrival n (countMalformed .fp3) s

/-- A STATION message at the block that takes it (R36). -/
def takeStation (m : StationMsg) (s : State) : State :=
  match m with
  | .claim c => takeClaim c s
  | .release r => takeRelease r s
  | .hearing h => takeHearing h s

/-- A STATION frame on FP3 for this node (R36, R182). -/
def arriveStation (payload : List Byte) (n : Nat) (s : State) : State :=
  match readStation payload with
  | some m => takeStation m (s.onIo (freeCells n))
  | none => dropArrival n (countMalformed .fp3) s

/-- An IMAGE message other than a BLOCK at the Image Engine (R37). -/
def takeImageMsg (src : Nat) (m : ImageMsg) (s : State) : State :=
  match m.body with
  | .announce v n crc r => takeAnnounce src m.query { id := m.id, version := v, count := n, crc } r s
  | .announceReply r => takeAnnounceReply m.query r s
  | .block _ _ _ => s
  | .mapQuery start => takeMapQuery src m.query m.id start s
  | .mapReport r => takeMapReport m.query r s
  | .verifyQuery => takeVerifyQuery src m.query m.id s
  | .verifyReport ok => takeVerifyReport m.query ok s
  | .propose c f => takePropose src m.query m.id c f s
  | .proposeReply r why => takeProposeReply m.query r why s
  | .cancel => takeCancel src m.query m.id s
  | .cancelReply ok => takeCancelReply m.query ok s
  | .quietRequest t => takeQuietRequest src m.query m.id t s
  | .quietReply st => takeQuietReply m.query st s

/-- An IMAGE frame on FP3 for this node (R37, R182): a BLOCK keeps its cells. -/
def arriveImage (src : Nat) (payload : List Byte) (n : Nat) (s : State) : State :=
  match readImage payload with
  | some m =>
    match m.body with
    | .block i crc data => takeBlock m.id i crc data n s
    | _ => takeImageMsg src m (s.onIo (freeCells n))
  | none => dropArrival n (countMalformed .fp3) s

/-- A DATA frame on FP3 for this node (R33, R41). -/
def arriveData (h : RawHdr) (payload : List Byte) (n : Nat) (s : State) : State :=
  intakeTaken .fp3 (some { fwd := h.fwd, cls := h.cls, src := h.src, station := h.station }) payload n s

/-- A frame on FP3 that has its cells and passes the checks of its header, by kind (R33). -/
def arriveBackhaul (k : Kind) (h : RawHdr) (payload : List Byte) (stamp : Option Time) (n : Nat) (s : State) : State :=
  match k with
  | .beacon => arriveBeacon payload stamp n s
  | .control => s.onIo (takeControl .fp3 (hdrOf h) payload n)
  | .notice => s.onIo (takeNotice (hdrOf h) payload n)
  | k =>
    if forNode (hdrOf h) s.io then
      match k with
      | .station => arriveStation payload n s
      | .image => arriveImage h.src payload n s
      | _ => arriveData h payload n s
    else dropArrival n countNotForNode s

/-- A frame with a mesh header that has its cells (R32 to R34). -/
def arriveMesh (p : Port) (m : List Byte) (stamp : Option Time) (n : Nat) (s : State) : State :=
  let h := readHdr m
  let payload := m.drop meshLen
  if hdrMalformed h m then dropArrival n (countMalformed p) s
  else
    match kindOf h.kind with
    | none => dropArrival n (countUnknown p) s
    | some k =>
      if p = .fp3 then arriveBackhaul k h payload stamp n s
      else if k = .control then s.onIo (takeControl p (hdrOf h) payload n)
      else dropArrival n (countWrongKind p) s

/-- A frame delivered by a port without an error indication (R28). -/
def deliverFrame (p : Port) (f : List Byte) (stamp : Option Time) (s : State) : State :=
  if maxLen p < f.length || f.length < minLen p f then
    s.onIo (countFp fun c => { c with lengthError := c.lengthError.inc p })
  else
    let r := allocArrival p f s.io
    if r.1 then
      let s1 := s.onIo fun _ => countFrameIn p r.2
      if isMesh p f then arriveMesh p (meshPart p f) stamp (cellsFor f.length) s1
      else intakeTaken p none f (cellsFor f.length) s1
    else s.onIo fun _ => r.2

/-- A port delivers a frame (R28). -/
def execFrameArrival (port : Port) (error : Bool) (bytes : List Byte) (stamp : Option Time) (s : State) :
    Host.Outcome State Fault Refusal :=
  .next (if error then s.onIo (countFp fun c => { c with rxError := c.rxError.inc port })
    else deliverFrame port bytes stamp s)

end Sys2Proof.Machine
end

