-- ==== Sys2Proof/Machine/Radio.lean ====
section
/-! DEFINITION. The radio sideband events (section 5.3): ASSOCIATE, SIGNAL, DISASSOCIATE and HEARD. -/

namespace Sys2Proof.Machine

/-- The port of a served station becomes a radio; an ARRIVING station's left mark is cleared (R91, R92). -/
def StState.onRadio (st : StState) (r : Radio) : StState :=
  match st with
  | .serving _ a => .serving r a
  | .arriving _ c => .arriving (some r) c
  | x => x

/-- An ASSOCIATE, or a SIGNAL taken as one (R91). -/
def takeAssociate (r : Radio) (a : Addr) (level : Int) (s : State) : State :=
  let s1 := s.countSu fun k => { k with associations := satInc k.associations }
  match s.entry a with
  | some e =>
    let s2 := s1.modifyEntry a (Station.takeLevel level)
    if e.st.served then s2.modifyEntry a fun x => { x with st := x.st.onRadio r } else arrive a r s2
  | none =>
    match roomForStation s1 with
    | some (i, s2) => arrive a r ((putEntry i a (.away none none) s2).modifyEntry a (Station.takeLevel level))
    | none => noEntry a r s1

/-- A SIGNAL (R92). -/
def takeSignal (r : Radio) (a : Addr) (level : Int) (s : State) : State :=
  let implicit := takeAssociate r a level
    (s.countSu fun k => { k with implicitAssociations := satInc k.implicitAssociations })
  match s.entry a with
  | some e =>
    if e.st.served then
      s.modifyEntry a fun x => { x.takeLevel level with st := x.st.onRadio r }
    else implicit
  | none => implicit

/-- A DISASSOCIATE (R93). -/
def takeDisassociate (r : Radio) (a : Addr) (s : State) : State :=
  let ignored := s.countSu fun k => { k with eventsIgnored := satInc k.eventsIgnored }
  let taken := s.countSu fun k => { k with disassociations := satInc k.disassociations }
  match s.stOf a with
  | some (.serving p allow) => if p = r then changeState a (.detached allow) taken else ignored
  | some (.arriving (some p) c) =>
    if p = r then taken.modifyEntry a fun e => { e with st := .arriving none c } else ignored
  | _ => ignored

/-- A HEARD (R94). -/
def takeHeard (a : Addr) (level : Int) (s : State) : State :=
  let mark := State.modifyEntry a fun e => { e.takeLevel level with heard := true }
  match s.entry a with
  | some e => if e.st.served then s.countSu fun k => { k with eventsIgnored := satInc k.eventsIgnored } else mark s
  | none =>
    match lowestEmpty s.su.table with
    | some i => mark (newAway i a (.away none none) s)
    | none => s.countSu fun k => { k with heardDropped := satInc k.heardDropped }

def execAssociate (radio : Radio) (station : Addr) (level : Int) (s : State) : Host.Outcome State Fault Refusal :=
  .next (takeAssociate radio station level s)

def execSignal (radio : Radio) (station : Addr) (level : Int) (s : State) : Host.Outcome State Fault Refusal :=
  .next (takeSignal radio station level s)

def execDisassociate (radio : Radio) (station : Addr) (s : State) : Host.Outcome State Fault Refusal :=
  .next (takeDisassociate radio station s)

/-- A HEARD carries a level whichever radio made it (R90); its port has no effect. -/
def execHeard (_radio : Radio) (station : Addr) (level : Int) (s : State) : Host.Outcome State Fault Refusal :=
  .next (takeHeard station level s)

end Sys2Proof.Machine
end

