-- ==== Sys2Proof/Machine/Dispatch.lean ====
section
/-! DEFINITION. What each command does: one arm per command, one meaning per arm. -/

namespace Sys2Proof.Machine

def exec (i : Instr) (s : State) : Host.Outcome State Fault Refusal :=
  match i with
  | .pinReset straps => Sys2Proof.Machine.execPinReset straps s
  | .cycleStart => Sys2Proof.Machine.execCycleStart s
  | .windowOpening => Sys2Proof.Machine.execWindowOpening s
  | .frameRelease port => Sys2Proof.Machine.execFrameRelease port s
  | .transmitDone port ok => Sys2Proof.Machine.execTransmitDone port ok s
  | .frameArrival port error bytes stamp => Sys2Proof.Machine.execFrameArrival port error bytes stamp s
  | .dataFrameArrival port hdr bytes => Sys2Proof.Machine.execDataFrameArrival port hdr bytes s
  | .beaconReceived b ltCap => Sys2Proof.Machine.execBeaconReceived b ltCap s
  | .claimReceived c => Sys2Proof.Machine.execClaimReceived c s
  | .releaseReceived r => Sys2Proof.Machine.execReleaseReceived r s
  | .hearingReceived h => Sys2Proof.Machine.execHearingReceived h s
  | .controlRequestArrival port nodes payload => Sys2Proof.Machine.execControlRequestArrival port nodes payload s
  | .responseNoticeRelay notice nodes payload => Sys2Proof.Machine.execResponseNoticeRelay notice nodes payload s
  | .announce src query img replace => Sys2Proof.Machine.execAnnounce src query img replace s
  | .blockMessage id index crc data => Sys2Proof.Machine.execBlockMessage id index crc data s
  | .mapQuery src query id start => Sys2Proof.Machine.execMapQuery src query id start s
  | .verifyQuery src query id => Sys2Proof.Machine.execVerifyQuery src query id s
  | .propose src query id cutover force => Sys2Proof.Machine.execPropose src query id cutover force s
  | .cancel src query id => Sys2Proof.Machine.execCancel src query id s
  | .quietRequest src query id t => Sys2Proof.Machine.execQuietRequest src query id t s
  | .announceReply query result => Sys2Proof.Machine.execAnnounceReply query result s
  | .mapReport query report => Sys2Proof.Machine.execMapReport query report s
  | .verifyReport query isMatch => Sys2Proof.Machine.execVerifyReport query isMatch s
  | .proposeReply query result reason => Sys2Proof.Machine.execProposeReply query result reason s
  | .cancelReply query cancelled => Sys2Proof.Machine.execCancelReply query cancelled s
  | .quietReply query status => Sys2Proof.Machine.execQuietReply query status s
  | .associate radio station level => Sys2Proof.Machine.execAssociate radio station level s
  | .signal radio station level => Sys2Proof.Machine.execSignal radio station level s
  | .disassociate radio station => Sys2Proof.Machine.execDisassociate radio station s
  | .heard radio station level => Sys2Proof.Machine.execHeard radio station level s
  | .minuteEvent => Sys2Proof.Machine.execMinuteEvent s
  | .pendingCutoverReached slot => Sys2Proof.Machine.execPendingCutoverReached slot s
  | .lingerEnd slot => Sys2Proof.Machine.execLingerEnd slot s
  | .waitDeadline slot => Sys2Proof.Machine.execWaitDeadline slot s
  | .predecessorDeadline slot => Sys2Proof.Machine.execPredecessorDeadline slot s
  | .imageSwitch => Sys2Proof.Machine.execImageSwitch s
  | .distributionDone => Sys2Proof.Machine.execDistributionDone s
  | .queryTimeout => Sys2Proof.Machine.execQueryTimeout s
  | .deferralIntervalEnd => Sys2Proof.Machine.execDeferralIntervalEnd s
  | .streamDrained => Sys2Proof.Machine.execStreamDrained s
  | .flashOperationStart => Sys2Proof.Machine.execFlashOperationStart s
  | .eraseComplete ok => Sys2Proof.Machine.execEraseComplete ok s
  | .writeComplete ok => Sys2Proof.Machine.execWriteComplete ok s
  | .verifyComplete ok data => Sys2Proof.Machine.execVerifyComplete ok data s
  | .blockReadComplete ok data => Sys2Proof.Machine.execBlockReadComplete ok data s
  | .unknownRequestCode h code => Sys2Proof.Machine.execUnknownRequestCode h code s
  | .readStatus h block => Sys2Proof.Machine.execReadStatus h block s
  | .readCounters h block => Sys2Proof.Machine.execReadCounters h block s
  | .clearCounters h => Sys2Proof.Machine.execClearCounters h s
  | .readEntryClassRule h index => Sys2Proof.Machine.execReadEntryClassRule h index s
  | .writeEntryClassRule h index f => Sys2Proof.Machine.execWriteEntryClassRule h index f s
  | .clearEntryClassRule h index => Sys2Proof.Machine.execClearEntryClassRule h index s
  | .readEntryFlow h slot => Sys2Proof.Machine.execReadEntryFlow h slot s
  | .writeEntryFlow h slot => Sys2Proof.Machine.execWriteEntryFlow h slot s
  | .clearEntryFlow h slot => Sys2Proof.Machine.execClearEntryFlow h slot s
  | .readEntryBackhaulWindow h active index => Sys2Proof.Machine.execReadEntryBackhaulWindow h active index s
  | .writeEntryBackhaulWindow h active index f => Sys2Proof.Machine.execWriteEntryBackhaulWindow h active index f s
  | .clearEntryBackhaulWindow h active index => Sys2Proof.Machine.execClearEntryBackhaulWindow h active index s
  | .readEntryPeer h node => Sys2Proof.Machine.execReadEntryPeer h node s
  | .writeEntryPeer h node rate delay => Sys2Proof.Machine.execWriteEntryPeer h node rate delay s
  | .clearEntryPeer h node => Sys2Proof.Machine.execClearEntryPeer h node s
  | .readEntryStation h slot => Sys2Proof.Machine.execReadEntryStation h slot s
  | .writeEntryStation h slot => Sys2Proof.Machine.execWriteEntryStation h slot s
  | .clearEntryStation h slot => Sys2Proof.Machine.execClearEntryStation h slot s
  | .readEntryContext h slot => Sys2Proof.Machine.execReadEntryContext h slot s
  | .writeEntryContext h slot => Sys2Proof.Machine.execWriteEntryContext h slot s
  | .clearEntryContext h slot => Sys2Proof.Machine.execClearEntryContext h slot s
  | .readEntryMembership h active index => Sys2Proof.Machine.execReadEntryMembership h active index s
  | .writeEntryMembership h active index addr profile => Sys2Proof.Machine.execWriteEntryMembership h active index addr profile s
  | .clearEntryMembership h active index => Sys2Proof.Machine.execClearEntryMembership h active index s
  | .readEntryProfile h active id => Sys2Proof.Machine.execReadEntryProfile h active id s
  | .writeEntryProfile h active id f => Sys2Proof.Machine.execWriteEntryProfile h active id f s
  | .clearEntryProfile h active id => Sys2Proof.Machine.execClearEntryProfile h active id s
  | .readEntryScheduleWindow h active index => Sys2Proof.Machine.execReadEntryScheduleWindow h active index s
  | .writeEntryScheduleWindow h active index f => Sys2Proof.Machine.execWriteEntryScheduleWindow h active index f s
  | .clearEntryScheduleWindow h active index => Sys2Proof.Machine.execClearEntryScheduleWindow h active index s
  | .readEntryQueueParameters h index => Sys2Proof.Machine.execReadEntryQueueParameters h index s
  | .commitWindowTable h method => Sys2Proof.Machine.execCommitWindowTable h method s
  | .commitScheduleTables h method => Sys2Proof.Machine.execCommitScheduleTables h method s
  | .discardWindowTable h => Sys2Proof.Machine.execDiscardWindowTable h s
  | .discardScheduleTables h => Sys2Proof.Machine.execDiscardScheduleTables h s
  | .setEventEnables h mask => Sys2Proof.Machine.execSetEventEnables h mask s
  | .ackEvents h mask => Sys2Proof.Machine.execAckEvents h mask s
  | .setAdmission h port setting => Sys2Proof.Machine.execSetAdmission h port setting s
  | .registerController h node port addr => Sys2Proof.Machine.execRegisterController h node port addr s
  | .restart h => Sys2Proof.Machine.execRestart h s
  | .setRate h n d => Sys2Proof.Machine.execSetRate h n d s
  | .setSyncParameters h f => Sys2Proof.Machine.execSetSyncParameters h f s
  | .syncControl h enable => Sys2Proof.Machine.execSyncControl h enable s
  | .presetTime h delta => Sys2Proof.Machine.execPresetTime h delta s
  | .setCalendar h weekSec => Sys2Proof.Machine.execSetCalendar h weekSec s
  | .requestQuiet h t => Sys2Proof.Machine.execRequestQuiet h t s
  | .setFramePathParameters h gateway => Sys2Proof.Machine.execSetFramePathParameters h gateway s
  | .setClassifierParameters h f => Sys2Proof.Machine.execSetClassifierParameters h f s
  | .setQueueParameters h port cls f => Sys2Proof.Machine.execSetQueueParameters h port cls f s
  | .setBackhaulParameters h overhead guardTime => Sys2Proof.Machine.execSetBackhaulParameters h overhead guardTime s
  | .setSteeringParameters h f => Sys2Proof.Machine.execSetSteeringParameters h f s
  | .setHandoffParameters h f => Sys2Proof.Machine.execSetHandoffParameters h f s
  | .setScheduleParameters h threshold => Sys2Proof.Machine.execSetScheduleParameters h threshold s
  | .readScheduleState h station => Sys2Proof.Machine.execReadScheduleState h station s
  | .setOverride h profile kind scope => Sys2Proof.Machine.execSetOverride h profile kind scope s
  | .clearOverride h profile kind => Sys2Proof.Machine.execClearOverride h profile kind s
  | .toggleOverride h profile kind scope => Sys2Proof.Machine.execToggleOverride h profile kind scope s
  | .grantBonus h profile minutes => Sys2Proof.Machine.execGrantBonus h profile minutes s
  | .imageOpen h img replace => Sys2Proof.Machine.execImageOpen h img replace s
  | .imageBlock h index crc data => Sys2Proof.Machine.execImageBlock h index crc data s
  | .imageClose h => Sys2Proof.Machine.execImageClose h s
  | .imageAbort h => Sys2Proof.Machine.execImageAbort h s
  | .imageCancel h => Sys2Proof.Machine.execImageCancel h s
  | .setImageParameters h f => Sys2Proof.Machine.execSetImageParameters h f s
  | .distributeStart h id replace targets => Sys2Proof.Machine.execDistributeStart h id replace targets s
  | .distributeAbort h => Sys2Proof.Machine.execDistributeAbort h s

end Sys2Proof.Machine
end

