-- ==== Sys2Proof/Machine/Idle.lean ====
section
/-! DEFINITION. What the block does with no command waiting (log 4): the step that has come due by itself, the request at
the head of the control queue, or one period of the reference clock. -/

namespace Sys2Proof.Machine

/-- The first slot that satisfies a condition. -/
def firstSlot {α : Type} (p : α → Bool) (l : List α) : Option Nat := l.findIdx? p

/-- Whether MT has reached the pending cutover of a station slot (R114). -/
def cutoverDue (now : Time) (o : Option Station) : Bool :=
  match o with
  | some e => match e.st with
    | .away _ (some (_, t)) => reached now t
    | _ => false
  | none => false

/-- The role and state of a slot's context. -/
def stOfSlot (x : CtxSlot) : Option CtxState := x.ctx.map (·.st)

/-- Whether FORWARDING ends by time in a context slot (R117). -/
def lingerDue (s : State) (x : CtxSlot) : Bool :=
  match stOfSlot x with
  | some (.depart false t l _ _ _) => lingerOver s t l
  | _ => false

/-- Whether LT has reached the deadline of an ARRIVE context (R112). -/
def waitDue (lt : Time) (x : CtxSlot) : Bool :=
  match stOfSlot x with
  | some (.arrive w) => reached lt w.deadline
  | _ => false

/-- Whether LT has reached the deadline of a context in AWAIT_PREDECESSOR (R121). -/
def predecessorDue (lt : Time) (x : CtxSlot) : Bool :=
  match stOfSlot x with
  | some (.await w _ _ _ _ _) => reached lt w.deadline
  | _ => false

/-- Whether the cycle count has changed since it was last observed (R6). -/
def cycleDue (s : State) : Bool := s.tb.count ≠ s.tb.lastCount

/-- Whether the minute differs from the one held (R134). -/
def minuteDue (s : State) : Bool :=
  match s.tb.cal.minute? s.se.ts with
  | some m => s.se.minute ≠ some m
  | none => false

/-- Whether MT has reached the cutover of an ARMED staging slot (R163). -/
def switchDue (s : State) : Bool :=
  match s.stagingState with
  | some (.armed c) => reached s.mt c
  | _ => false

/-- Whether a distribution's time has come: its cutover (R169), a timeout (R165), or the end of a deferral interval
(R169). -/
def doneDue (s : State) : Bool :=
  match s.ie.dist with
  | some d => match d.phase, d.cutover with
    | .armed, some c => reached s.mt c
    | _, _ => false
  | none => false

def timeoutDue (s : State) : Bool :=
  match s.ie.dist.bind (·.query) with
  | some q => reached s.tb.lt q.deadline
  | none => false

def intervalDue (s : State) : Bool :=
  match s.ie.dist with
  | some d => match d.phase, d.stage with
    | .propose, .waiting wake => reached s.tb.lt wake
    | _, _ => false
  | none => false

/-- Whether the blocks of STREAM or RESEND are all on their way and gone (R166, R167). -/
def drainDue (s : State) : Bool :=
  match s.ie.dist with
  | some d => (d.phase = .stream || d.phase = .resend) && d.wanted = none && s.io.blockFrames = 0
  | none => false

/-- Whether the idle flash port has work (R152). -/
def flashDue (s : State) : Bool :=
  s.ie.inFlight.isNone &&
    (s.ie.pendingOp.isSome || !s.ie.writeQ.isEmpty || ((s.ie.dist.bind Dist.wanted).isSome && s.io.blockFrames < 4))

/-- Whether an event of R73 asks a free port for a choice. -/
def choiceDueAt (p : Port) (s : State) : Bool := (s.io.port p).choiceDue && (s.io.port p).tx = .free

/-- The times that have come, in the order the model takes them (log 5). -/
def dueTimed (s : State) : Option Instr :=
  if cycleDue s then some .cycleStart
  else if minuteDue s then some .minuteEvent
  else
    match firstSlot (cutoverDue s.mt) s.su.table, firstSlot (lingerDue s) s.hu.slots,
        firstSlot (waitDue s.tb.lt) s.hu.slots, firstSlot (predecessorDue s.tb.lt) s.hu.slots with
    | some i, _, _, _ => some (.pendingCutoverReached i)
    | none, some i, _, _ => some (.lingerEnd i)
    | none, none, some i, _ => some (.waitDeadline i)
    | none, none, none, some i => some (.predecessorDeadline i)
    | none, none, none, none =>
      if switchDue s then some .imageSwitch
      else if doneDue s then some .distributionDone
      else if timeoutDue s then some .queryTimeout
      else if intervalDue s then some .deferralIntervalEnd
      else none

/-- The command that has come due by itself (log 5). -/
def due (s : State) : Option Instr :=
  match dueTimed s with
  | some i => some i
  | none =>
    if s.io.es.seen ≠ some (s.io.es.inEffect s.tb) then some .windowOpening
    else if flashDue s then some .flashOperationStart
    else if drainDue s then some .streamDrained
    else (Port.all.find? fun p => choiceDueAt p s).map .frameRelease

/-- The request at the head of the control queue executed (R175). A table id or commit target that names nothing is
answered MALFORMED after the other checks (R179). The request has left the queue when its rule runs, so a READ STATUS does
not count itself (DESIGN CHOICE, log 44). -/
def runHead (r : CtlReq) (rest : List CtlReq) (s : State) : Host.Outcome State Fault Refusal :=
  let s1 := s.onIo (Io.onCu fun c => { c with queue := rest })
  match decodeRequest r with
  | .row i => exec i s1
  | .noTarget h code => .next (request h code (refuse .malformed) s1)

/-- One period of the reference clock (R1), with T_s following MT (R133). -/
def tick (s : State) : State := followTs (s.onTb TimeBase.tick)

/-- A step with no command waiting (log 4). -/
def idle (s : State) : Host.Outcome State Fault Refusal :=
  match due s with
  | some i => exec i s
  | none =>
    match s.io.cu.queue with
    | r :: rest => runHead r rest s
    | [] => .next (tick s)

end Sys2Proof.Machine
end

