-- ==== Sys2Proof/WellFormed.lean ====
section
/-! DEFINITION. The range check of a command's operands: every operand is a value its field can carry (chapter 10) or
names a record there is. Meanings are total; this check says which terms spell a command of the block. -/

namespace Sys2Proof

/-- A field of `w` bytes holds the number. -/
def fits (w n : Nat) : Bool := n < 256 ^ w

/-- A signed field of `w` bytes holds the number. -/
def fitsInt (w : Nat) (z : Int) : Bool :=
  -((256 ^ w / 2 : Nat) : Int) ≤ z && z < ((256 ^ w / 2 : Nat) : Int)

def optFits (w : Nat) : Option Nat → Bool
  | none => true
  | some n => fits w n

def optFitsInt (w : Nat) : Option Int → Bool
  | none => true
  | some z => fitsInt w z

/-- A node id (R32). -/
def nodeOk (n : Nat) : Bool := 1 ≤ n && n ≤ 8

/-- A pair of a timeout of `w` bytes and one byte of retries. -/
def pairFits (w : Nat) : Option (Nat × Nat) → Bool
  | none => true
  | some (t, r) => fits w t && fits 1 r

def ReqHead.wf (h : ReqHead) : Bool := fits 2 h.tag && h.dest ≤ 8

def NodePair.wf (n : NodePair) : Bool := nodeOk n.src && n.dst ≤ 8

def ImageInfo.wf (i : ImageInfo) : Bool := fits 2 i.id && fits 4 i.version && fits 2 i.count && fits 4 i.crc

def CalRec.wf (c : CalRec) : Bool := fits 4 c.weekSec && fits 1 c.gen

def Beacon.wf (b : Beacon) : Bool :=
  nodeOk b.root && b.prio ≤ 7 && fits 1 b.exp &&
    match b.cal with
    | none => true
    | some c => c.wf

def Allowance.wf (a : Allowance) : Bool := a.remaining ≤ 86400 && a.day ≤ 6

def Hint.wf (h : Hint) : Bool := fits 2 h.rPort && fits 2 h.lPort && fits 4 h.rAddr

def Claim.wf (c : Claim) : Bool := nodeOk c.claimant && c.prev ≤ 8

def Release.wf (r : Release) : Bool :=
  nodeOk r.sender && fits 2 r.forwarded && r.allow.wf && r.profile ≤ 31 && r.hints.length ≤ 8 && r.hints.all Hint.wf

def HearingMsg.wf (h : HearingMsg) : Bool := nodeOk h.reporter && fitsInt 2 h.level

def MapContent.wf (m : MapContent) : Bool :=
  m.ranges.length ≤ 16 && m.ranges.all fun r => fits 2 r.1 && fits 2 r.2

def DataHdr.wf (h : DataHdr) : Bool := h.cls ≤ 3 && nodeOk h.src

def ClassRuleFields.wf (f : ClassRuleFields) : Bool :=
  fits 1 f.proto && fits 2 f.rLo && fits 2 f.rHi && fits 2 f.lLo && fits 2 f.lHi && fits 2 f.sLo && fits 2 f.sHi &&
    fits 1 f.profile && fits 1 f.cls

def WindowFields.wf (f : WindowFields) : Bool :=
  fits 2 f.start && fits 2 f.length && fits 1 f.kind && fits 1 f.owner && fits 1 f.mask && fits 1 f.k && fits 1 f.c

def ActionFields.wf (a : ActionFields) : Bool := fits 1 a.action && fits 1 a.target

def ProfileFields.wf (f : ProfileFields) : Bool :=
  optFits 1 f.default && optFits 2 f.fallback && optFits 1 f.exhausted &&
    (match f.daily with
     | none => true
     | some l => l.length = 7 && l.all (fits 2)) &&
    match f.matrix with
    | none => true
    | some l => l.length = 4 && l.all ActionFields.wf

def SchedWindowFields.wf (f : SchedWindowFields) : Bool :=
  fits 1 f.profile && fits 2 f.start && fits 2 f.stop && fits 1 f.kind

def SyncFields.wf (f : SyncFields) : Bool :=
  optFits 1 f.priority && optFits 1 f.rootWatch && optFits 1 f.beaconWatch && optFits 2 f.lockCount &&
    optFits 1 f.lockWindow && optFits 1 f.exponent

def ClassifierFields.wf (f : ClassifierFields) : Bool :=
  optFits 2 f.pmin && optFits 2 f.pmax && optFits 2 f.smax && optFits 1 f.tp && optFits 1 f.idle

def QueueFields.wf (f : QueueFields) : Bool := optFits 2 f.limit && optFits 2 f.quantum && optFits 3 f.cap

def SteeringFields.wf (f : SteeringFields) : Bool :=
  optFitsInt 2 f.hyst && optFitsInt 1 f.thresh && optFitsInt 2 f.gameHyst && optFitsInt 1 f.gameThr &&
    optFits 1 f.dwell && optFits 1 f.holdOff

def HandoffFields.wf (f : HandoffFields) : Bool := optFits 1 f.claimDelay && optFits 1 f.linger && optFits 3 f.tctx

def ImageParamFields.wf (f : ImageParamFields) : Bool :=
  pairFits 3 f.announce && pairFits 3 f.map && pairFits 4 f.verify && pairFits 3 f.propose && optFits 1 f.roundsMax &&
    optFits 1 f.interval && optFits 1 f.maxDeferrals && optFits 1 f.lead

/-- The bytes of a port's largest field of a frame: a payload length is two bytes. -/
def bytesOk (bs : List Byte) : Bool := fits 2 bs.length

/-- Every operand is a value its field can carry (chapter 10); slots and ports are those the part has. -/
def Instr.wf : Instr → Bool
  | .pinReset st => st.nodeId ≤ 7
  | .cycleStart | .windowOpening | .frameRelease _ | .transmitDone _ _ => true
  | .frameArrival _ _ bytes _ => bytesOk bytes
  | .dataFrameArrival port hdr bytes =>
    bytesOk bytes &&
      match hdr with
      | none => port != .fp3
      | some h => port = .fp3 && h.wf
  | .beaconReceived b _ => b.wf
  | .claimReceived c => c.wf
  | .releaseReceived r => r.wf
  | .hearingReceived h => h.wf
  | .controlRequestArrival _ nodes payload => nodes.wf && bytesOk payload
  | .responseNoticeRelay _ nodes payload => nodes.wf && bytesOk payload
  | .announce src query img _ => nodeOk src && fits 2 query && img.wf
  | .blockMessage id index crc data => fits 2 id && fits 2 index && fits 2 crc && data.length = 1024
  | .mapQuery src query id start => nodeOk src && fits 2 query && fits 2 id && fits 2 start
  | .verifyQuery src query id => nodeOk src && fits 2 query && fits 2 id
  | .propose src query id _ _ => nodeOk src && fits 2 query && fits 2 id
  | .cancel src query id => nodeOk src && fits 2 query && fits 2 id
  | .quietRequest src query id _ => nodeOk src && fits 2 query && fits 2 id
  | .announceReply query _ => fits 2 query
  | .mapReport query report => fits 2 query && report.wf
  | .verifyReport query _ => fits 2 query
  | .proposeReply query _ reason => fits 2 query && reason != .late
  | .cancelReply query _ => fits 2 query
  | .quietReply query _ => fits 2 query
  | .associate _ _ level => fitsInt 1 level
  | .signal _ _ level => fitsInt 1 level
  | .disassociate _ _ => true
  | .heard _ _ level => fitsInt 1 level
  | .minuteEvent => true
  | .pendingCutoverReached slot => slot < Config.stationCount
  | .lingerEnd slot => slot < Config.contextCount
  | .waitDeadline slot => slot < Config.contextCount
  | .predecessorDeadline slot => slot < Config.contextCount
  | .imageSwitch | .distributionDone | .queryTimeout | .deferralIntervalEnd | .streamDrained | .flashOperationStart => true
  | .eraseComplete _ | .writeComplete _ => true
  | .verifyComplete _ _ => true
  | .blockReadComplete _ data => data.length = 1024
  | .unknownRequestCode h code => h.wf && fits 2 code
  | .readStatus h block => h.wf && fits 1 block
  | .readCounters h block => h.wf && fits 1 block
  | .clearCounters h => h.wf
  | .readEntryClassRule h index => h.wf && fits 2 index
  | .writeEntryClassRule h index f => h.wf && fits 2 index && f.wf
  | .clearEntryClassRule h index => h.wf && fits 2 index
  | .readEntryFlow h slot => h.wf && fits 2 slot
  | .writeEntryFlow h slot => h.wf && fits 2 slot
  | .clearEntryFlow h slot => h.wf && fits 2 slot
  | .readEntryBackhaulWindow h _ index => h.wf && fits 2 index
  | .writeEntryBackhaulWindow h _ index f => h.wf && fits 2 index && f.wf
  | .clearEntryBackhaulWindow h _ index => h.wf && fits 2 index
  | .readEntryPeer h node => h.wf && fits 2 node
  | .writeEntryPeer h node rate delay => h.wf && fits 2 node && fits 2 rate && fits 2 delay
  | .clearEntryPeer h node => h.wf && fits 2 node
  | .readEntryStation h slot => h.wf && fits 2 slot
  | .writeEntryStation h slot => h.wf && fits 2 slot
  | .clearEntryStation h slot => h.wf && fits 2 slot
  | .readEntryContext h slot => h.wf && fits 2 slot
  | .writeEntryContext h slot => h.wf && fits 2 slot
  | .clearEntryContext h slot => h.wf && fits 2 slot
  | .readEntryMembership h _ index => h.wf && fits 2 index
  | .writeEntryMembership h _ index _ profile => h.wf && fits 2 index && fits 1 profile
  | .clearEntryMembership h _ index => h.wf && fits 2 index
  | .readEntryProfile h _ id => h.wf && fits 2 id
  | .writeEntryProfile h _ id f => h.wf && fits 2 id && f.wf
  | .clearEntryProfile h _ id => h.wf && fits 2 id
  | .readEntryScheduleWindow h _ index => h.wf && fits 2 index
  | .writeEntryScheduleWindow h _ index f => h.wf && fits 2 index && f.wf
  | .clearEntryScheduleWindow h _ index => h.wf && fits 2 index
  | .readEntryQueueParameters h index => h.wf && fits 2 index
  | .commitWindowTable h method => h.wf && fits 1 method
  | .commitScheduleTables h method => h.wf && fits 1 method
  | .discardWindowTable h => h.wf
  | .discardScheduleTables h => h.wf
  | .setEventEnables h mask => h.wf && fits 2 mask
  | .ackEvents h mask => h.wf && fits 2 mask
  | .setAdmission h port setting => h.wf && fits 1 port && fits 1 setting
  | .registerController h node port _ => h.wf && fits 1 node && fits 1 port
  | .restart h => h.wf
  | .setRate h n d => h.wf && fits 3 n && fits 2 d
  | .setSyncParameters h f => h.wf && f.wf
  | .syncControl h _ => h.wf
  | .presetTime h delta => h.wf && fitsInt 6 delta
  | .setCalendar h weekSec => h.wf && fits 3 weekSec
  | .requestQuiet h _ => h.wf
  | .setFramePathParameters h gateway => h.wf && fits 1 gateway
  | .setClassifierParameters h f => h.wf && f.wf
  | .setQueueParameters h port cls f => h.wf && fits 1 port && fits 1 cls && f.wf
  | .setBackhaulParameters h overhead guardTime => h.wf && fits 1 overhead && fits 1 guardTime
  | .setSteeringParameters h f => h.wf && f.wf
  | .setHandoffParameters h f => h.wf && f.wf
  | .setScheduleParameters h threshold => h.wf && fits 3 threshold
  | .readScheduleState h _ => h.wf
  | .setOverride h profile kind scope => h.wf && fits 1 profile && fits 1 kind && fits 1 scope
  | .clearOverride h profile kind => h.wf && fits 1 profile && fits 1 kind
  | .toggleOverride h profile kind scope => h.wf && fits 1 profile && fits 1 kind && fits 1 scope
  | .grantBonus h profile minutes => h.wf && fits 1 profile && fits 2 minutes
  | .imageOpen h img _ => h.wf && img.wf
  | .imageBlock h index crc data => h.wf && fits 2 index && fits 2 crc && data.length = 1024
  | .imageClose h => h.wf
  | .imageAbort h => h.wf
  | .imageCancel h => h.wf
  | .setImageParameters h f => h.wf && f.wf
  | .distributeStart h id _ targets => h.wf && fits 2 id && targets.all (fits 1)
  | .distributeAbort h => h.wf

end Sys2Proof
end

