-- ==== Sys2Proof/Safety.lean ====
section
/-! DEFINITION. When a step is safe, the invariants of the block, and the words the statements share: what every request
command carries, when the checks of R175 let it through, and the state its answer leaves. -/

namespace Sys2Proof

/-- The head and the code of a command that is a request of a known code (10.6). -/
def Instr.request? : Instr → Option (ReqHead × Nat)
  | .readStatus h _ => some (h, 1)
  | .readCounters h _ => some (h, 2)
  | .clearCounters h => some (h, 3)
  | .readEntryClassRule h _ | .readEntryFlow h _ | .readEntryBackhaulWindow h _ _ | .readEntryPeer h _
  | .readEntryStation h _ | .readEntryContext h _ | .readEntryMembership h _ _ | .readEntryProfile h _ _
  | .readEntryScheduleWindow h _ _ | .readEntryQueueParameters h _ => some (h, 4)
  | .writeEntryClassRule h _ _ | .writeEntryFlow h _ | .writeEntryBackhaulWindow h _ _ _ | .writeEntryPeer h _ _ _
  | .writeEntryStation h _ | .writeEntryContext h _ | .writeEntryMembership h _ _ _ _ | .writeEntryProfile h _ _ _
  | .writeEntryScheduleWindow h _ _ _ => some (h, 5)
  | .clearEntryClassRule h _ | .clearEntryFlow h _ | .clearEntryBackhaulWindow h _ _ | .clearEntryPeer h _
  | .clearEntryStation h _ | .clearEntryContext h _ | .clearEntryMembership h _ _ | .clearEntryProfile h _ _
  | .clearEntryScheduleWindow h _ _ => some (h, 6)
  | .commitWindowTable h _ | .commitScheduleTables h _ => some (h, 7)
  | .discardWindowTable h | .discardScheduleTables h => some (h, 8)
  | .setEventEnables h _ => some (h, 9)
  | .ackEvents h _ => some (h, 10)
  | .setAdmission h _ _ => some (h, 11)
  | .registerController h _ _ _ => some (h, 12)
  | .restart h => some (h, 13)
  | .setRate h _ _ => some (h, 16)
  | .setSyncParameters h _ => some (h, 17)
  | .syncControl h _ => some (h, 18)
  | .presetTime h _ => some (h, 19)
  | .setCalendar h _ => some (h, 20)
  | .requestQuiet h _ => some (h, 21)
  | .setFramePathParameters h _ => some (h, 24)
  | .setClassifierParameters h _ => some (h, 25)
  | .setQueueParameters h _ _ _ => some (h, 26)
  | .setBackhaulParameters h _ _ => some (h, 27)
  | .setSteeringParameters h _ => some (h, 28)
  | .setHandoffParameters h _ => some (h, 29)
  | .setScheduleParameters h _ => some (h, 30)
  | .readScheduleState h _ => some (h, 32)
  | .setOverride h _ _ _ => some (h, 33)
  | .clearOverride h _ _ => some (h, 34)
  | .toggleOverride h _ _ _ => some (h, 35)
  | .grantBonus h _ _ => some (h, 36)
  | .imageOpen h _ _ => some (h, 40)
  | .imageBlock h _ _ _ => some (h, 41)
  | .imageClose h => some (h, 42)
  | .imageAbort h => some (h, 43)
  | .imageCancel h => some (h, 44)
  | .setImageParameters h _ => some (h, 45)
  | .distributeStart h _ _ _ => some (h, 46)
  | .distributeAbort h => some (h, 47)
  | _ => none

/-- A read request the checks of R175 let through. -/
def ReqHead.readable (h : ReqHead) : Prop := h.denied = false ∧ h.short = false

/-- A manage request the checks of R175 let through: it names a node as well. -/
def ReqHead.admitted (h : ReqHead) : Prop := h.denied = false ∧ h.dest ≠ 0 ∧ h.short = false

end Sys2Proof

namespace Sys2Proof.Machine

/-- A step is safe when it gives a next state. The model has no fault, and no arm of `exec` refuses a command, so every
step of it is meant to be safe. -/
def stepSafe (s : State) : Prop := ∃ t, step s = .next t

/-- The state after the answer of a request, built on the state its rule leaves (R175). -/
def answered (h : ReqHead) (code : Nat) (st : Status) (recs : List (List Byte)) (t : State) : State :=
  t.onIo (respond h.tag code st recs)

/-- `Io` after a frame of `n` cells was taken at a port, with the cells to spare, and its cells were freed again at the
hand-over (R28, R30, R31). -/
def tookFrame (p : Port) (n : Nat) (io : Io) : Io :=
  io.onFp fun x =>
    { x with
      lowestFree := min x.lowestFree (x.freeCells - n)
      counters := { x.counters with framesIn := x.counters.framesIn.inc p } }

/-- A number clamped to a range where the request carries it, the old value where it does not (00 section 3.4). -/
def written (lo hi : Nat) (new : Option Nat) (old : Nat) : Nat :=
  match new with
  | some n => max lo (min hi n)
  | none => old

/-- The same for a signed number. -/
def writtenInt (lo hi : Int) (new : Option Int) (old : Int) : Int :=
  match new with
  | some n => max lo (min hi n)
  | none => old

/-- The field values a body of an IMAGE message can carry (10.5). -/
def ImageBody.wf : ImageBody → Bool
  | .announce v n crc _ => fits 4 v && fits 2 n && fits 4 crc
  | .announceReply _ => true
  | .block i crc data => fits 2 i && fits 2 crc && data.length = 1024
  | .mapQuery start => fits 2 start
  | .mapReport m => m.wf
  | .verifyQuery => true
  | .verifyReport _ => true
  | .propose _ _ => true
  | .proposeReply _ reason => reason != .late
  | .cancel => true
  | .cancelReply _ => true
  | .quietRequest _ => true
  | .quietReply _ => true

/-- The status of a quiet request for a mesh time (R25). -/
def quietVerdict (at_ : Time) (t : TimeBase) : Status :=
  if t.sync ≠ .root then .notRoot
  else if at_.toNat % 2 ^ t.params.exponent ≠ 0 then .malformed
  else if 0 ≤ (t.mt - (at_ - BitVec.ofNat 48 (2 ^ t.params.exponent))).toInt then .range
  else if 2 ^ 24 < (at_ - t.mt).toNat then .range
  else if at_ ∈ t.quietList then .ok
  else if t.quietList.length < 4 then .ok
  else .tableFull

/-- The Time Base after a quiet request: an accepted time not yet listed stands in ascending order (R25). -/
def quietTaken (at_ : Time) (t : TimeBase) : TimeBase :=
  if quietVerdict at_ t = .ok ∧ at_ ∉ t.quietList then
    { t with quietList :=
        t.quietList.takeWhile (fun x => 0 ≤ (at_ - x).toInt) ++ at_ :: t.quietList.dropWhile (fun x => 0 ≤ (at_ - x).toInt) }
  else t

/-! ## Valid tables -/

/-- The entry of an index fails R83: entry 0 is not the BEACON window at position 0 of every cycle, or an in-use entry is
another BEACON window, ends beyond the cycle, or starts before the in-use entry before it ends. -/
def WindowFails (cycle : Nat) (ws : List Window) (i : Nat) : Prop :=
  (i = 0 ∧ ¬ ∃ w, ws[0]? = some w ∧ w.inUse = true ∧ w.kind = .beacon ∧ w.start = 0 ∧ w.k = 0) ∨
    ∃ w, ws[i]? = some w ∧ w.inUse = true ∧
      ((i ≠ 0 ∧ w.kind = .beacon) ∨ cycle < w.start + w.length ∨
        ∃ j v, j < i ∧ ws[j]? = some v ∧ v.inUse = true ∧
          (∀ k u, j < k → k < i → ws[k]? = some u → u.inUse = false) ∧ w.start < v.start + v.length)

/-- A window table passes R83. -/
def WindowsValid (cycle : Nat) (ws : List Window) : Prop := ∀ i, ¬ WindowFails cycle ws i

/-- A LIMIT action matrix passes R130: class 0 is not PASS, class 3 is not DEMOTE, and a DEMOTE goes to a greater
class. -/
def MatrixValid (m : PerClass Action) : Prop :=
  m.c0 ≠ .pass ∧ (∀ t, m.c3 ≠ .demote t) ∧ (∀ t, m.c0 = .demote t → 0 < t) ∧ (∀ t, m.c1 = .demote t → 1 < t) ∧
    ∀ t, m.c2 = .demote t → 2 < t

/-- An in-use membership entry fails R130: an earlier in-use entry holds its address. -/
def MemberFails (ms : List Member) (i : Nat) : Prop :=
  ∃ m, ms[i]? = some m ∧ m.inUse = true ∧ ∃ j v, j < i ∧ ms[j]? = some v ∧ v.inUse = true ∧ v.addr = m.addr

/-- A profile id fails R130. -/
def ProfileFails (ps : List Profile) (id : Nat) : Prop := 1 ≤ id ∧ ∃ p, ps[id - 1]? = some p ∧ ¬ MatrixValid p.matrix

/-- An in-use schedule window fails R130, on its own or against the in-use entry before it. -/
def SchedWindowFails (ws : List SchedWindow) (i : Nat) : Prop :=
  ∃ w, ws[i]? = some w ∧ w.inUse = true ∧
    (¬ (w.kind = .maintenance ↔ w.profile = 0) ∨
      ∃ j v, j < i ∧ ws[j]? = some v ∧ v.inUse = true ∧
        (∀ k u, j < k → k < i → ws[k]? = some u → u.inUse = false) ∧
        (¬ (v.profile < w.profile ∨ (v.profile = w.profile ∧ v.start < w.start)) ∨
          (w.profile = v.profile ∧ w.start < v.stop)))

/-- What fails R130, by the table ids 8, 10 and 12 of the staged tables (log 8) and the index or profile id. -/
def SchedFails (t : SchedTables) (table index : Nat) : Prop :=
  (table = 8 ∧ MemberFails t.members index) ∨ (table = 10 ∧ ProfileFails t.profiles index) ∨
    (table = 12 ∧ SchedWindowFails t.windows index)

/-- The schedule tables pass R130. -/
def SchedValid (t : SchedTables) : Prop := ∀ table index, ¬ SchedFails t table index

/-- The numerator lies in the trim band of its base, and the base is at least 8 times the denominator (R2). -/
def RateInBand (s : State) : Prop :=
  s.tb.nBase - s.tb.nBase / 512 ≤ s.tb.n ∧ s.tb.n ≤ s.tb.nBase + s.tb.nBase / 512 ∧ 8 * s.tb.d ≤ s.tb.nBase

/-! ## What events and built frames leave alone -/

/-- What every operation that raises events or places built frames keeps: all of `Io` but the pool's counts, the
counters, the tails of the management queues, and the pending flags, first details and counts of the event records. -/
structure Io.Kept (a b : Io) : Prop where
  nodeId    : b.fp.nodeId = a.fp.nodeId
  gateway   : b.fp.gateway = a.fp.gateway
  gatewayId : b.fp.gatewayId = a.fp.gatewayId
  beaconPos : b.es.beaconPos = a.es.beaconPos
  active    : b.es.active = a.es.active
  staged    : b.es.staged = a.es.staged
  pending   : b.es.pending = a.es.pending
  peers     : b.es.peers = a.es.peers
  overhead  : b.es.overhead = a.es.overhead
  guardTime : b.es.guardTime = a.es.guardTime
  seen      : b.es.seen = a.es.seen
  queue     : ∀ p, (b.port p).queue = (a.port p).queue
  credit    : ∀ p, (b.port p).credit = (a.port p).credit
  limit     : ∀ p, (b.port p).limit = (a.port p).limit
  written   : ∀ p, (b.port p).written = (a.port p).written
  inUse     : ∀ p, (b.port p).inUse = (a.port p).inUse
  tx        : ∀ p, (b.port p).tx = (a.port p).tx
  mgmt      : ∀ p, (a.port p).mgmt <+: (b.port p).mgmt
  admission : b.cu.admission = a.cu.admission
  control   : b.cu.queue = a.cu.queue
  reg       : b.cu.reg = a.cu.reg
  enable    : ∀ c, (b.cu.events.get c).enable = (a.cu.events.get c).enable
  freeCount : b.freeCount = a.freeCount

/-! ## The invariants of the block -/

/-- A property that a step which gives a next state keeps. -/
def KeptByStep (p : State → Prop) : Prop := ∀ s t, p s → step s = .next t → p t

/-- Free cells, and the cells of the queues, the transmitters and the beacon position. -/
def Io.cells (io : Io) : Nat :=
  io.fp.freeCells + (io.es.ports.toList.map PortEgress.cells).sum + io.es.beaconCells

/-- The cells of the flash write queue and of the block read in flight. -/
def ImageEngine.cells (e : ImageEngine) : Nat := (e.writeQ.map (·.cells)).sum + e.readCells

/-- The free cells and every held cell (R29). -/
def State.cells (s : State) : Nat := s.io.cells + s.hu.holdCells + s.ie.cells

/-- The sum of R29. -/
def CellsAccounted (s : State) : Prop := s.cells = Config.poolCells

/-- Every class credit lies in -1535..C of its class (R72). -/
def CreditsInRange (s : State) : Prop :=
  ∀ p k, -1535 ≤ (s.io.port p).credit.get k ∧ (s.io.port p).credit.get k ≤ (((s.io.port p).inUse.get k).cap : Int)

/-- The station table has its 192 slots, and no two entries hold the same address (section 5.1). -/
def StationsDistinct (s : State) : Prop :=
  s.su.table.length = Config.stationCount ∧
    ∀ (i j : Nat) (e f : Station), s.su.table[i]? = some (some e) → s.su.table[j]? = some (some f) → e.addr = f.addr → i = j

/-- The flow table has its 512 slots, and no two records hold the same key (section 3.4). -/
def FlowsDistinct (s : State) : Prop :=
  s.cl.flows.length = Config.flowCount ∧
    ∀ (i j : Nat) (f g : Flow), s.cl.flows[i]? = some (some f) → s.cl.flows[j]? = some (some g) → f.key = g.key → i = j

/-- An allowance that is absent, or whose remaining seconds lie in 0..86400. -/
def remainingOk : Option Allowance → Prop
  | some a => a.remaining ≤ 86400
  | none => True

/-- The allowance and pending charge of an entry's state lie in 0..86400 (R140). -/
def StState.chargeOk : StState → Prop
  | .serving _ a => a.remaining ≤ 86400
  | .detached a => a.remaining ≤ 86400
  | .arriving _ c => c ≤ 86400
  | .away _ _ => True

/-- The allowances and the pending charge of a context lie in 0..86400 (R140). -/
def CtxState.chargeOk : CtxState → Prop
  | .arrive w => remainingOk w.own ∧ remainingOk (w.taken.map (·.carried))
  | .await w _ c _ _ _ => remainingOk w.own ∧ remainingOk (w.taken.map (·.carried)) ∧ c ≤ 86400
  | .depart _ _ _ _ _ sn => remainingOk sn

/-- The daily allowances of a copy of the tables lie in 0..1440 minutes (R128). -/
def SchedTables.dailyOk (t : SchedTables) : Prop := ∀ p ∈ t.profiles, ∀ m ∈ p.daily, m ≤ 1440

/-- R140's bound on every allowance and pending charge, with what it rests on: daily allowances in range (R128) and
waiting commands whose operands fit their fields. -/
def AllowancesInRange (s : State) : Prop :=
  (∀ i ∈ s.pending, i.wf = true) ∧ s.se.active.dailyOk ∧ s.se.staged.dailyOk ∧
    (∀ e ∈ s.su.table.filterMap id, e.st.chargeOk) ∧ ∀ x ∈ s.hu.slots, ∀ c, x.ctx = some c → c.st.chargeOk

/-- The counts of a slot's record (R151). -/
def SlotRec.countsOk (r : SlotRec) : Prop :=
  r.map.length = r.img.count ∧ r.received = r.map.count true ∧ r.received ≤ r.img.count ∧ r.failures ≤ 3

/-- The counts of R151 in both slots. -/
def SlotCountsAgree (s : State) : Prop := ∀ n r, (s.ie.slot n).held = some r → r.countsOk

/-- An event record holds a first detail and a count exactly when it is pending (9.5, R177, R178). -/
def EventRecordsConsistent (s : State) : Prop :=
  ∀ c, (s.io.cu.events.get c).first.isSome = (s.io.cu.events.get c).pending ∧
    ((s.io.cu.events.get c).count = 0 ↔ (s.io.cu.events.get c).pending = false)

/-- The carried fraction of an MU is a proper fraction over a multiple of N, and N and its base are at least 1 (R1, R2,
log 11). -/
def RateFractionProper (s : State) : Prop :=
  0 < s.tb.n ∧ 0 < s.tb.nBase ∧ s.tb.fracNum < s.tb.fracDen ∧ s.tb.n ∣ s.tb.fracDen

/-- A beacon waits to be sent only in ROOT (R14, log 35). -/
def BeaconOnlyInRoot (s : State) : Prop := s.io.es.beaconPos.isSome = true → s.tb.sync = .root

/-- Mesh time is not ahead of the schedule time (R133). -/
def ScheduleTimeCaughtUp (s : State) : Prop := ¬ 0 < (s.mt - s.se.ts).toInt

/-! ## Effective states computed, schedule commits, aborts -/

/-- The effective states of the SERVING and ARRIVING stations that satisfy a condition computed (R137, R138): each entry
holds its new state; STATE_CHANGED is raised and counted where it differs from the one held, in the order of the slots
(log 41, the model's choice); and the flows of each of these stations take the class and the suppressed flag of that
state. -/
def statesComputed (p : Station → Bool) (s : State) : State :=
  let takes (e : Station) : Bool := e.st.served && p e
  let now (e : Station) : Station := { e with eff := s.se.effective e.profile e.st }
  let changes : List (Addr × EffState × EffState) := (s.su.table.filterMap id).filterMap fun e =>
    match e.eff, (now e).eff with
    | some o, some n => if takes e && o ≠ n then some (e.addr, o, n) else none
    | _, _ => none
  let flow (f : Flow) : Flow :=
    match s.entry f.key.station with
    | some e =>
      let r := effUnder s.se (some (now e)) f.clsClass f.essential
      if takes e then { f with effClass := r.1, suppressed := r.2 } else f
    | none => f
  { s with
    io := changes.foldl (fun io c => raise (.stateChanged c.1 c.2.1 c.2.2) io) s.io
    su := { s.su with table := s.su.table.map fun o => o.map fun e => if takes e then now e else e }
    cl := { s.cl with flows := s.cl.flows.map fun o => o.map flow }
    se := { s.se with counters := { s.se.counters with
      stateChanges := Nat.repeat satInc changes.length s.se.counters.stateChanges } } }

/-- A schedule commit taken (R132): the staged tables in use, TABLES_COMMITTED raised, the entries' profiles refreshed, the
flows of the stations whose profile changed marked for re-match (R52), and every effective state computed. -/
def schedCommitted (m : SchedMethod) (s : State) : State :=
  let profile (e : Station) : Nat := s.se.staged.member e.addr
  let flow (f : Flow) : Flow :=
    match s.entry f.key.station with
    | some e => if profile e ≠ e.profile then { f with rematch := true } else f
    | none => f
  statesComputed (fun _ => true)
    { s with
      io := raise (.tablesCommitted m s.se.minute) s.io
      su := { s.su with table := s.su.table.map fun o => o.map fun e => { e with profile := profile e } }
      cl := { s.cl with flows := s.cl.flows.map fun o => o.map flow }
      se := { s.se with active := s.se.staged, pending := none } }

/-- CANCELs sent one after the other to the nodes of a list, each under the next query number (R165, R170), with the number
reached and QUERIES_SENT, which counts where the queue takes the message (log 19). -/
def cancelsSent (id : Nat) : List Nat → Io → Nat → Nat → Io × Nat × Nat
  | [], io, num, sent => (io, num, sent)
  | n :: ns, io, num, sent =>
    let q := (num + 1) % 65536
    let r := sendImage n { query := q, id, body := .cancel } io
    cancelsSent id ns r.2 q (if r.1 then satInc sent else sent)

/-- A running distribution aborted (R170): one CANCEL to each ACCEPTED target in list order, this node's own slot VERIFIED
again if it is ARMED for the image, a block read in flight left without a distribution, and DISTRIBUTION_ENDED raised. -/
def distAborted (c : EndCause) (d : Dist) (s : State) : State :=
  let nodes := (d.targets.filter fun t => t.st = .accepted).map (·.node)
  let r := cancelsSent d.img.id nodes s.io s.ie.queryNum s.ie.counters.queriesSent
  let x := s.ie.slot (!s.ie.active)
  let own : Slot := match x.held with
    | some y => match y.st with
      | .armed _ => if y.img.id = d.img.id then { x with held := some { y with st := .verified } } else x
      | _ => x
    | none => x
  let e : ImageEngine :=
    { s.ie with
      dist := some { d with phase := .aborted, query := none }
      queryNum := r.2.1
      counters := { s.ie.counters with queriesSent := r.2.2 }
      inFlight := match s.ie.inFlight with
        | some (.blockRead n l i k _) => some (.blockRead n l i k false)
        | o => o }
  { s with io := raise (.distributionEnded c) r.1, ie := e.setSlot (!s.ie.active) own }

/-! ## Allowances formed, arrivals completed, waits ended -/

/-- The allowance R143 forms from a source or none, a pending charge, and whether the previous server was 0. Its day is
open where there is no current minute and no known source (log 9). -/
def FormedAs (e : ScheduleEngine) (profile : Nat) (source : Option Allowance) (charge : Nat) (newToMesh : Bool)
    (al : Allowance) : Prop :=
  (∀ m, e.minute = some m →
    let today := m / 1440
    let daily := ((e.active.profile profile).daily[today]?).getD 0
    let fallback := min daily (e.active.profile profile).fallback
    al.day = today ∧ al.known = true ∧
      (∀ a, source = some a →
        al.remaining = (if a.known = true ∧ a.day = today then a.remaining else daily * 60) - charge) ∧
      (source = none → al.remaining = (if newToMesh then daily else fallback) * 60 - charge)) ∧
  (e.minute = none →
    (∀ a, source = some a → a.known = true → al = a) ∧
      ((source = none ∨ ∃ a, source = some a ∧ a.known = false) → al.remaining = 0 ∧ al.known = false))

/-- FALLBACKS counts each use of the fallback row of R143. -/
def FallbackCounted (source : Option Allowance) (newToMesh : Bool) (s t : State) : Prop :=
  t.se.counters.fallbacks =
    if source.isNone && !newToMesh && s.se.minute.isSome then satInc s.se.counters.fallbacks else s.se.counters.fallbacks

/-- The hints of a completed arrival handed to the Classifier (step 3 of R111): they are taken by R64 on the flows as steps 1
and 2 leave them, the station's flows under its new state, and no other FLOW event comes between. -/
def HintsTaken (a : Addr) (hints : List Hint) (s t : State) : Prop :=
  let settled (f : Flow) : Flow :=
    let r := effUnder t.se (t.entry a) f.clsClass f.essential
    if f.key.station = a then { f with effClass := r.1, suppressed := r.2 } else f
  ∃ u : State, u.tb = s.tb ∧ u.su = t.su ∧ u.se = t.se ∧
    u.cl = { s.cl with flows := s.cl.flows.map fun o => o.map settled } ∧
    u.io.cu.events.get .flow = s.io.cu.events.get .flow ∧
    t.cl = (takeHints a hints u).cl ∧ t.io.cu.events.get .flow = (takeHints a hints u).io.cu.events.get .flow

/-- What the completion of the ARRIVE context `c` in slot `i` leaves (R111), with its allowance formed from `source` and the
snapshot of a DEPART context beside it removed (R122). -/
def ArrivalCompleted (i : Nat) (x : CtxSlot) (c : Context) (w : Waiting) (source : Option Allowance) (s t : State) : Prop :=
  t.hu.slots[i]? = some { x with ctx := none } ∧
  t.hu.counters.arrivalsCompleted = satInc s.hu.counters.arrivalsCompleted ∧
  (0 < c.drops → (t.io.cu.events.get .handoff).pending = true) ∧
  (∀ j y d fl cut l n o sn, s.departOf c.station = some (j, d) → s.hu.slots[j]? = some y →
    d.st = .depart fl cut l n o sn →
    t.hu.slots[j]? = some { y with ctx := some { d with st := .depart fl cut l n o none } }) ∧
  (∀ (j : Nat) (e : Station) q ch, StationsDistinct s → s.su.table[j]? = some (some e) → e.addr = c.station →
    e.st = .arriving q ch →
    ∃ al st, FormedAs s.se e.profile source ch (c.peer = 0) al ∧ FallbackCounted source (c.peer = 0) s t ∧
      st = (match q with
        | some r => .serving r al
        | none => .detached al) ∧
      t.su.table = s.su.table.set j (some
        { e with st := st, since := s.mt, dwell := 0, eff := t.se.effective e.profile st }) ∧
      HintsTaken c.station c.hints s t ∧
      (∀ r k, q = some r → k ≤ 3 → (∀ f ∈ w.hold, f.cls ≤ 3) →
        (t.io.port (radioPort r)).queue.get k =
          (s.io.port (radioPort r)).queue.get k ++ w.hold.filter fun f => f.cls = k) ∧
      (q = none → t.hu.counters.holdDrop = satAdd s.hu.counters.holdDrop w.hold.length ∧
        (w.hold ≠ [] → (t.io.cu.events.get .handoff).pending = true)))

/-- The profile of a station's entry, 0 without one. -/
def State.profileOf (s : State) (a : Addr) : Nat :=
  match s.entry a with
  | some e => e.profile
  | none => 0

/-- A RELEASE as this node sends it for a station to a peer (R118). -/
def releaseFrame (s : State) (a : Addr) (peer forwarded : Nat) (al : Allowance) (hints : List Hint) : QFrame :=
  { hdr := some { src := s.io.fp.nodeId, dst := peer }
    content := .station (.release {
      station := a, sender := s.io.fp.nodeId, forwarded := forwarded, allow := al, profile := s.profileOf a
      hints := hints })
    cells := 1 }

/-- A CLAIM of this node for a station, broadcast over FP3 (R105, R106, R112). -/
def claimFrame (s : State) (a : Addr) (prev : Nat) (cutover : Time) : QFrame :=
  { hdr := some { src := s.io.fp.nodeId, dst := 0 }
    content := .station (.claim { station := a, claimant := s.io.fp.nodeId, prev := prev, cutover := cutover })
    cells := 1 }

/-- A cutover of MT plus the claim delay (R105, R106). -/
def nextCutover (s : State) : Time := s.mt + BitVec.ofNat 48 (s.hu.params.claimDelay * 2 ^ s.tb.params.exponent)

/-- A CLAIM behind the frames of the FP3 management queue, where no notice can come between and the pool and the queue have
room for it. -/
def ClaimQueued (a : Addr) (prev : Nat) (cutover : Time) (s t : State) : Prop :=
  s.io.cu.reg = none → 1 ≤ s.io.fp.freeCells → (s.io.port .fp3).mgmt.length < 16 →
    (t.io.port .fp3).mgmt = (s.io.port .fp3).mgmt ++ [claimFrame s a prev cutover] ∧
      t.hu.counters.claimsSent = satInc s.hu.counters.claimsSent

/-- A RELEASE with an allowance snapshot, or without one an allowance that is not known, behind the frames of the FP3
management queue (R118). -/
def ReleaseQueued (a : Addr) (peer forwarded : Nat) (sn : Option Allowance) (hints : List Hint) (s t : State) : Prop :=
  ∃ al, (∀ v, sn = some v → al = v) ∧ (sn = none → al.known = false) ∧
    (t.io.port .fp3).mgmt = (s.io.port .fp3).mgmt ++ [releaseFrame s a peer forwarded al hints] ∧
    t.hu.counters.releasesSent = satInc s.hu.counters.releasesSent

/-- The held frames of a context moved to its peer as FWD frames with the context's mark, without the class limit
(R116, R121). -/
def HeldForwarded (i : Nat) (x : CtxSlot) (c : Context) (hold : List QFrame) (s t : State) : Prop :=
  let fwd (f : QFrame) : QFrame :=
    { f with
      hdr := some { fwd := true, cls := f.cls, src := s.io.fp.nodeId, dst := c.peer, station := c.station }
      mark := some { slot := i, gen := x.gen } }
  (∀ f ∈ hold, f.cls ≤ 3) → ∀ k, k ≤ 3 →
    (t.io.port .fp3).queue.get k = (s.io.port .fp3).queue.get k ++ (hold.filter fun f => f.cls = k).map fwd

/-- Whether the entry of a station holds its allowance, SERVING or DETACHED. -/
def State.servedOrLeft (s : State) (a : Addr) : Bool :=
  match s.entry a with
  | some e => e.st.allowance.isSome
  | none => false

/-- The snapshot step 1 of R121 forms: none where the entry holds the station's allowance. -/
def SnapshotFormed (c : Context) (w : Waiting) (p ch : Nat) (sn : Option Allowance) (s t : State) : Prop :=
  let source : Option Allowance := match w.taken with
    | some k => some k.carried
    | none => w.own
  (s.servedOrLeft c.station = true → sn = none) ∧
    (s.servedOrLeft c.station = false → ∃ al, sn = some al ∧ FormedAs s.se (s.profileOf c.station) source ch (p = 0) al ∧
      FallbackCounted source (p = 0) s t)

/-- What the end of the wait of the AWAIT_PREDECESSOR context `c` in slot `i` leaves (R121). -/
def WaitEnded (i : Nat) (x : CtxSlot) (c : Context) (w : Waiting) (p ch : Nat) (cut : Time) (n o : Nat) (s t : State) : Prop :=
  let past : Prop := 0 ≤ (s.mt - (cut + BitVec.ofNat 48 (s.hu.params.linger * 2 ^ s.tb.params.exponent))).toInt
  let flush : Prop := past ∨ (s.arriveOf c.station).isSome = true ∨ s.servedOrLeft c.station = true
  HeldForwarded i x c w.hold s t ∧
  (0 < c.drops → (t.io.cu.events.get .handoff).pending = true) ∧
  ∃ sn o', SnapshotFormed c w p ch sn s t ∧ (o + w.hold.length ≤ 65535 → o' = o + w.hold.length) ∧
    let after (flushing : Bool) : Context := { c with st := .depart flushing cut s.hu.params.linger n o' sn }
    (¬ flush → t.hu.slots[i]? = some { x with ctx := some (after false) }) ∧
    (flush → 0 < o' → t.hu.slots[i]? = some { x with ctx := some (after true) }) ∧
    (flush → o' = 0 → c.hints.length ≤ 8 → s.io.cu.reg = none → 1 ≤ s.io.fp.freeCells → (s.io.port .fp3).mgmt.length < 16 →
      t.hu.slots[i]? = some { x with ctx := none } ∧ ReleaseQueued c.station c.peer n sn c.hints s t)

/-- What the early end of the DEPART context `d` in slot `j` sends (R123): the held frames first, then the RELEASE with the
forwarded and the outstanding counts together. -/
def EndedEarly (j : Nat) (y : CtxSlot) (d : Context) (s t : State) : Prop :=
  t.hu.counters.earlyReleases = satInc s.hu.counters.earlyReleases ∧
  (d.hints.length ≤ 8 → 1 ≤ s.io.fp.freeCells → (s.io.port .fp3).mgmt.length < 16 →
    (∀ fl cut l n o sn, d.st = .depart fl cut l n o sn → n + o ≤ 65535 →
      ReleaseQueued d.station d.peer (n + o) sn d.hints s t) ∧
    (∀ w p ch cut n o, d.st = .await w p ch cut n o → n + o + w.hold.length ≤ 65535 →
      HeldForwarded j y d w.hold s t ∧
        ∃ sn, SnapshotFormed d w p ch sn s t ∧ ReleaseQueued d.station d.peer (n + o + w.hold.length) sn d.hints s t))

end Sys2Proof.Machine
end

