-- ==== Sys2Proof/Certificates/Slice0/Obligations.lean ====
section
/-! DEFINITION. The statements for the provers. A title or docstring that names a log entry says that the statement rests
on a choice of the model's. -/

section

open Sys2Proof Sys2Proof.Machine

/-! ## The machine -/

/-- A step takes the command at the front of the queue and runs it on the state with the queue's rest. -/
def Obligations.StepRunsTheFrontCommand : Prop :=
  ∀ (i : Instr) (rest : List Instr) (s : State), step { s with pending := i :: rest } = exec i { s with pending := rest }

/-- A step on an empty queue (the model's choice, log 4): what has come due, else the request at the head of the control
queue, else one period of the reference clock, in which LT advances by R1 and T_s follows MT by R133. A request whose block,
table id or target names nothing (R175, R179, 10.7) is answered MALFORMED, and DENIED if its verdict is denied, with
REQUEST_DENIED raised before its response (log 44, the model's choice); that a write or clear on the queue parameters, table
14, is one of them is log 27 (DEDUCED). -/
def Obligations.EmptyQueueStepGoesOn : Prop :=
  ∀ s : State, s.pending = [] →
    (∀ i, due s = some i → step s = exec i s) ∧
    (∀ r rest i, due s = none → s.io.cu.queue = r :: rest → decodeRequest r = .row i →
      step s = exec i (s.onIo (Io.onCu fun c => { c with queue := rest }))) ∧
    (∀ r rest, due s = none → s.io.cu.queue = r :: rest →
      let code := field r.payload 3 2
      let named := field (r.payload.drop 5) 0 1
      let nothing : Prop :=
        ((code = 1 ∨ code = 2) ∧ (named = 0 ∨ 9 < named)) ∨ (code = 4 ∧ (named = 0 ∨ 14 < named)) ∨
          ((code = 5 ∨ code = 6) ∧ (named = 0 ∨ 13 < named)) ∨ ((code = 7 ∨ code = 8) ∧ (named = 0 ∨ 2 < named))
      let h : ReqHead := { port := r.port, denied := r.denied, tag := field r.payload 1 2, dest := r.dest, short := false }
      let x := s.onIo (Io.onCu fun c => { c with queue := rest })
      nothing →
        (r.denied = true → step s = .next (answered h code .denied [] (x.onIo fun io =>
          raise (.requestDenied r.port code)
            (countCu (fun c => { c with requestsDenied := satInc c.requestsDenied }) io)))) ∧
        (r.denied = false → step s = .next (answered h code .malformed [] x))) ∧
    (due s = none → s.io.cu.queue = [] →
      let sum := s.tb.fracNum + s.tb.d * (s.tb.fracDen / s.tb.n)
      let lt := s.tb.lt + BitVec.ofNat 48 (sum / s.tb.fracDen)
      let mt := lt + s.tb.offset
      step s = .next
        { s with
          tb := { s.tb with lt := lt, fracNum := sum % s.tb.fracDen }
          se := { s.se with ts := if 0 < (mt - s.se.ts).toInt then mt else s.se.ts } })

/-- Every command answers a next state, whatever the state; none but pin reset moves LT, the node id or the role, and none
touches the queue of waiting commands. -/
def Obligations.EveryCommandAnswersNext : Prop :=
  ∀ (i : Instr) (s : State), ∃ t, exec i s = .next t ∧ t.pending = s.pending ∧
    ((∀ st, i ≠ .pinReset st) →
      t.tb.lt = s.tb.lt ∧ t.io.fp.nodeId = s.io.fp.nodeId ∧ t.io.fp.gateway = s.io.fp.gateway)

/-- R1: `P` reference periods add floor((carried + P × D / N)) MU and carry the rest; a write of N and D keeps the carried
fraction; nothing else moves LT or the fraction but pin reset, which clears both. That the fraction stays a proper one over
a multiple of N at every step is the model's reading (log 11, DEDUCED). -/
def Obligations.LocalTimeAdvancesAtTheRate : Prop :=
  KeptByStep RateFractionProper ∧
  (∀ (P : Nat) (s : State), RateFractionProper s →
    let t := s.tb
    let sum := t.fracNum + P * (t.d * (t.fracDen / t.n))
    (Nat.repeat TimeBase.tick P t).lt = t.lt + BitVec.ofNat 48 (sum / t.fracDen) ∧
      (Nat.repeat TimeBase.tick P t).fracNum = sum % t.fracDen ∧
      (t.fracNum = 0 → (Nat.repeat TimeBase.tick P t).lt = t.lt + BitVec.ofNat 48 (P * t.d / t.n))) ∧
  (∀ i s t, exec i s = .next t → (∀ st, i ≠ .pinReset st) →
    t.tb.lt = s.tb.lt ∧ t.tb.fracNum * s.tb.fracDen = s.tb.fracNum * t.tb.fracDen) ∧
  (∀ st s, ∃ t, exec (.pinReset st) s = .next t ∧ t.tb.lt = 0 ∧ t.tb.fracNum = 0 ∧ t.tb.n = 163840 ∧ t.tb.d = 4096)

/-! ## Invariants -/

/-- The sum of R29 is kept by every step. -/
def Obligations.CellsAccountedAtEveryStep : Prop := KeptByStep CellsAccounted

/-- R72: what a cycle start puts into use and reloads, the range of every credit, and the credits of pin reset and
RESTART. -/
def Obligations.CreditsReloadAndStayInRange : Prop :=
  KeptByStep CreditsInRange ∧
  (∀ s : State, s.tb.count ≠ s.tb.lastCount → ∃ t, exec .cycleStart s = .next t ∧
    ∀ p, (t.io.port p).inUse = (s.io.port p).written ∧ (t.io.port p).tx = (s.io.port p).tx ∧
      ∀ k, (t.io.port p).credit.get k =
        min ((s.io.port p).credit.get k + (((s.io.port p).written.get k).quantum : Int))
          (((s.io.port p).written.get k).cap : Int)) ∧
  (∀ st s, ∃ t, exec (.pinReset st) s = .next t ∧ ∀ p k, (t.io.port p).credit.get k = 0) ∧
  (∀ h s, h.admitted → ∃ t, exec (.restart h) s = .next t ∧ ∀ p k, (t.io.port p).credit.get k = 0)

/-- No two entries of the station table come to hold one address, and no two flows one key. -/
def Obligations.StationsAndFlowsStayDistinct : Prop := KeptByStep StationsDistinct ∧ KeptByStep FlowsDistinct

/-- Every allowance and pending charge stays in 0..86400 seconds; the received count of a slot stays the number of flags set,
and no count of a slot leaves its range. -/
def Obligations.AllowancesAndSlotCountsStayInRange : Prop := KeptByStep AllowancesInRange ∧ KeptByStep SlotCountsAgree

/-- An event record holds a first detail and a count exactly while its category is pending; mesh time never stands ahead
of the schedule time after a step; and a beacon waits to be sent only while the node is in ROOT (log 35). -/
def Obligations.EventRecordsScheduleTimeAndBeaconStayConsistent : Prop :=
  KeptByStep EventRecordsConsistent ∧ KeptByStep ScheduleTimeCaughtUp ∧ KeptByStep BeaconOnlyInRoot

/-- Every invariant holds right after a pin reset, whatever the straps, and so right after reset. -/
def Obligations.InvariantsHoldAtPinReset : Prop :=
  (∃ st, State.reset = State.pinReset st) ∧
  ∀ st, let s := State.pinReset st
    CellsAccounted s ∧ CreditsInRange s ∧ StationsDistinct s ∧ FlowsDistinct s ∧ AllowancesInRange s ∧
      SlotCountsAgree s ∧ EventRecordsConsistent s ∧ ScheduleTimeCaughtUp s ∧ RateInBand s ∧ RateFractionProper s ∧
      BeaconOnlyInRoot s

/-! ## Encodings -/

/-- A mesh header read back from the front of a frame, and a beacon, a STATION and an IMAGE body read back from their own
bytes. -/
def Obligations.HeadersBeaconsAndMessagesRoundTrip : Prop :=
  (∀ (k : Kind) (h : MeshHdr) (n : Nat) (rest : List Byte),
    fits 1 h.cls = true → fits 1 h.src = true → fits 1 h.dst = true → fits 2 n = true →
    readHdr (hdrBytes k h n ++ rest) =
      { version := 1, kind := kindCode k, fwd := h.fwd, cls := h.cls, src := h.src, dst := h.dst, station := h.station,
        plen := n }) ∧
  (∀ b : Beacon, b.wf = true → readBeacon (beaconBytes b) = some b) ∧
  (∀ c : Claim, c.wf = true → readStation (stationBytes (.claim c)) = some (.claim c)) ∧
  (∀ r : Release, r.wf = true → readStation (stationBytes (.release r)) = some (.release r)) ∧
  (∀ h : HearingMsg, h.wf = true → readStation (stationBytes (.hearing h)) = some (.hearing h)) ∧
  ∀ m : ImageMsg, fits 2 m.query = true → fits 2 m.id = true → m.body.wf = true → readImage (imageBytes m) = some m

/-! ## Requests, responses and events -/

/-- R175: the checks before the owning rule, for every request command, in their order; the response counted and placed in a
management queue by the registration, or lost for want of a registration (R40), of cells or of room in that queue (R31,
R70). The cells of a response are counted without a link header and its header names the registered node, as log 8 has
it. REQUEST_DENIED is raised before its response (log 44, the model's choice). A response without a registration takes its
cells and frees them, and counts no POOL_FULL where the pool is short of them (log 27, DEDUCED). -/
def Obligations.RequestsAreCheckedAndAnswered : Prop :=
  (∀ h code s, exec (.unknownRequestCode h code) s = .next (answered h code .malformed [] s)) ∧
  (∀ i h code s, i.request? = some (h, code) →
    (h.denied = true → exec i s = .next (answered h code .denied []
      (s.onIo fun io => raise (.requestDenied h.port code)
        (countCu (fun c => { c with requestsDenied := satInc c.requestsDenied }) io)))) ∧
    (h.denied = false → code ≠ 1 → code ≠ 2 → code ≠ 4 → code ≠ 32 → h.dest = 0 →
      exec i s = .next (answered h code .malformed [] s)) ∧
    (h.denied = false → (code = 1 ∨ code = 2 ∨ code = 4 ∨ code = 32 ∨ h.dest ≠ 0) → h.short = true →
      exec i s = .next (answered h code .malformed [] s))) ∧
  ∀ (tag code : Nat) (st : Status) (recs : List (List Byte)) (io : Io),
    let payload := be 1 2 ++ be 2 tag ++ be 2 code ++ be 1 io.fp.nodeId ++ be 1 (statusCode st) ++ cutResult recs
    let n := (18 + payload.length + 255) / 256
    let counted := countCu (fun c => { c with requestsExecuted := satInc c.requestsExecuted }) io
    let lost (x : Io) : Io := countCu (fun c => { c with responsesLost := satInc c.responsesLost }) x
    (∀ reg, io.cu.reg = some reg → n ≤ io.fp.freeCells →
      let p := if reg.node = io.fp.nodeId then reg.port else .fp3
      (io.port p).mgmt.length < 16 →
      respond tag code st recs io = (takeCells n counted).onPort p fun e =>
        { e with
          mgmt := e.mgmt ++ [{
            hdr := some { src := io.fp.nodeId, dst := reg.node }
            link := if reg.node = io.fp.nodeId then some reg.addr else none
            content := .control payload
            cells := n }]
          choiceDue := true }) ∧
    (∀ reg, io.cu.reg = some reg →
      let p := if reg.node = io.fp.nodeId then reg.port else .fp3
      (io.fp.freeCells < n →
        respond tag code st recs io = lost (raise (.poolExhausted p .control n)
          (countFp (fun c => { c with poolFull := c.poolFull.inc p }) counted))) ∧
      (n ≤ io.fp.freeCells → 16 ≤ (io.port p).mgmt.length →
        respond tag code st recs io = lost (raise (.mgmtDrop p .control)
          (countEs p (fun c => { c with mgmtFull := satInc c.mgmtFull }) (freeCells n (takeCells n counted)))))) ∧
    (io.cu.reg = none →
      respond tag code st recs io = lost (countFp (fun c => { c with noRoute := satInc c.noRoute })
        (if n ≤ io.fp.freeCells then freeCells n (takeCells n counted) else counted)))

/-- An event enters the record of its category, and sends a NOTICE when that makes an enabled category pending with a
controller registered (R177); a NOTICE without cells or without room in its queue is lost and counted, and but for one of
CONTROL its drop is a BUFFER event in turn. The cells of a NOTICE are counted without a link header and its header names the
registered node, as log 8 has it. -/
def Obligations.EventEntersItsRecord : Prop :=
  ∀ (e : Event) (io : Io),
    let r := io.cu.events.get e.category
    let put (x : EventRec) : Io := io.onCu fun c => { c with events := c.events.set e.category x }
    (r.pending = true → raise e io = put { r with count := min (r.count + 1) 65535 }) ∧
    (r.pending = false → (r.enable = false ∨ io.cu.reg = none) →
      raise e io = put { r with pending := true, first := some e, count := 1 }) ∧
    (∀ reg, r.pending = false → r.enable = true → io.cu.reg = some reg →
      let payload := be 1 io.fp.nodeId ++ be 1 (categoryCode e.category) ++ be 2 1 ++ be 1 (eventCode e).2 ++
        be 1 (eventDetail e).length ++ eventDetail e
      let n := (18 + payload.length + 255) / 256
      let p := if reg.node = io.fp.nodeId then reg.port else .fp3
      n ≤ io.fp.freeCells → (io.port p).mgmt.length < 16 →
      raise e io =
        countCu (fun c => { c with noticesSent := satInc c.noticesSent })
          ((takeCells n (put { r with pending := true, first := some e, count := 1 })).onPort p fun x =>
            { x with
              mgmt := x.mgmt ++ [{
                hdr := some { src := io.fp.nodeId, dst := reg.node }
                link := if reg.node = io.fp.nodeId then some reg.addr else none
                content := .notice payload
                cells := n }]
              choiceDue := true })) ∧
    (∀ reg, r.pending = false → r.enable = true → io.cu.reg = some reg →
      let first := put { r with pending := true, first := some e, count := 1 }
      let n := (18 + (6 + (eventDetail e).length) + 255) / 256
      let p := if reg.node = io.fp.nodeId then reg.port else .fp3
      let lost (x : Io) : Io := countCu (fun c => { c with noticesLost := satInc c.noticesLost }) x
      let told (x : Event) (y : Io) : Io := if e.category = .control then y else raiseBuffer x y
      (io.fp.freeCells < n →
        raise e io = lost (told (.poolExhausted p .notice n)
          (countFp (fun c => { c with poolFull := c.poolFull.inc p }) first))) ∧
      (n ≤ io.fp.freeCells → 16 ≤ (io.port p).mgmt.length →
        raise e io = lost (told (.mgmtDrop p .notice)
          (countEs p (fun c => { c with mgmtFull := satInc c.mgmtFull }) (freeCells n (takeCells n first)))))) ∧
    (e.category = .buffer → (r.pending = true ∨ r.enable = false ∨ io.cu.reg = none) → raiseBuffer e io = raise e io)

/-! ## Requests of the Time Base -/

/-- R2: SET RATE clamps, refuses a numerator below 8 times the denominator with nothing changed, and otherwise writes N, D
and N_base, invalidates the rate anchor and keeps the carried fraction; N stays in the band. -/
def Obligations.SetRateWritesTheRate : Prop :=
  (∀ h n d s, h.admitted →
    let n' := max 1 (min 262143 n)
    let d' := max 1 (min 16383 d)
    (n' < 8 * d' → exec (.setRate h n d) s = .next (answered h 16 .malformed [] s)) ∧
    (8 * d' ≤ n' → ∃ num den, num * s.tb.fracDen = s.tb.fracNum * den ∧
      exec (.setRate h n d) s = .next (answered h 16 .ok []
        { s with tb := { s.tb with n := n', d := d', nBase := n', rateAnchor := none, fracNum := num, fracDen := den } }))) ∧
  KeptByStep RateInBand ∧
  (∀ st, let t := (State.pinReset st).tb
    RateInBand (State.pinReset st) ∧ t.nBase = 163840 ∧ t.nBase - t.nBase / 512 = 163520 ∧
      t.nBase + t.nBase / 512 = 164160) ∧
  (∀ h s, h.admitted → ∃ t, exec (.restart h) s = .next t ∧ t.tb.n = s.tb.n ∧ t.tb.d = s.tb.d ∧ t.tb.nBase = s.tb.nBase)

/-- SET SYNC PARAMETERS and SYNC CONTROL (R4, R5, R8, R14): clamped values, the refusals of an exponent change, the exit
from ROOT by priority 7, enable and disable; an exit from ROOT discards the unsent beacon and frees its cells (log 35,
DEDUCED), before the notice of ROOT_YIELDED asks for cells (log 49, the model's choice). An exponent change that meets
both refusals is answered WRONG_STATE (log 53, the model's choice). -/
def Obligations.SyncRequestsWriteAndMove : Prop :=
  let unsent (io : Io) : Io :=
    (io.onEs fun e => { e with beaconPos := none }).onFp fun f =>
      { f with freeCells := f.freeCells + queueCells io.es.beaconPos.toList }
  (∀ h f s, h.admitted →
    let old := s.tb.params
    let p : SyncParams :=
      { priority := written 0 7 f.priority old.priority
        rootWatch := written 8 255 f.rootWatch old.rootWatch
        beaconWatch := written 2 32 f.beaconWatch old.beaconWatch
        lockCount := written 1 15 f.lockCount old.lockCount
        lockWindow := written 1 63 f.lockWindow old.lockWindow
        exponent := written 10 16 f.exponent old.exponent }
    let beyond : Prop := ∃ w ∈ s.io.es.active ++ s.io.es.staged, w.inUse = true ∧ 2 ^ p.exponent < w.start + w.length
    (p.exponent ≠ old.exponent → s.tb.sync ≠ .free →
      exec (.setSyncParameters h f) s = .next (answered h 17 .wrongState [] s)) ∧
    (p.exponent ≠ old.exponent → s.tb.sync = .free → beyond →
      exec (.setSyncParameters h f) s = .next (answered h 17 .range [] s)) ∧
    ((p.exponent = old.exponent ∨ (s.tb.sync = .free ∧ ¬ beyond)) → (s.tb.sync ≠ .root ∨ p.priority ≠ 7) →
      exec (.setSyncParameters h f) s = .next (answered h 17 .ok [] { s with tb := { s.tb with params := p } })) ∧
    (p.exponent = old.exponent → s.tb.sync = .root → p.priority = 7 →
      exec (.setSyncParameters h f) s = .next (answered h 17 .ok []
        { s with
          tb := { s.tb with params := p, sync := .listen, listenWatch := 0, preset := none, quietList := [] }
          io := raise (.rootYielded .listen) (unsent s.io) })))  ∧
  (∀ h s, h.admitted →
    (s.tb.sync = .free →
      exec (.syncControl h true) s = .next (answered h 18 .ok []
        { s with tb := { s.tb with sync := .listen, listenWatch := 0 } })) ∧
    (s.tb.sync ≠ .free → exec (.syncControl h true) s = .next (answered h 18 .ok [] s)) ∧
    (s.tb.sync ≠ .root →
      exec (.syncControl h false) s = .next (answered h 18 .ok []
        { s with tb := { s.tb with sync := .free, followed := none, rateAnchor := none } })) ∧
    (s.tb.sync = .root →
      exec (.syncControl h false) s = .next (answered h 18 .ok []
        { s with
          tb := { s.tb with sync := .free, followed := none, rateAnchor := none, preset := none, quietList := [] }
          io := unsent s.io })))

/-- R20: PRESET TIME is judged in its order, becomes pending, is applied at the root's next cycle start, is discarded by
every exit from ROOT, is absent at pin reset and kept by RESTART. The application is that of R21: OFFSET rises by the delta,
the anchor becomes invalid, DISCONTINUITY is owed to the next beacon, MESH_TIME_STEP is raised (the error in its detail is a
free value, log 9), T_s becomes the new MT, the window in effect is found anew, and one cycle start of the new MT follows,
whatever its count. -/
def Obligations.PresetTimeBecomesPending : Prop :=
  (∀ (h : ReqHead) (delta : Int) (s : State), h.admitted →
    (s.tb.sync ≠ .root → exec (.presetTime h delta) s = .next (answered h 19 .notRoot [] s)) ∧
    (s.tb.sync = .root → 2 ^ 40 < delta.natAbs → exec (.presetTime h delta) s = .next (answered h 19 .range [] s)) ∧
    (s.tb.sync = .root → delta.natAbs ≤ 2 ^ 40 →
      delta % ((2 ^ s.tb.params.exponent : Nat) : Int) ≠ 0 →
        exec (.presetTime h delta) s = .next (answered h 19 .malformed [] s)) ∧
    (s.tb.sync = .root → delta.natAbs ≤ 2 ^ 40 → delta % ((2 ^ s.tb.params.exponent : Nat) : Int) = 0 →
      (∀ d, s.tb.preset = some d → exec (.presetTime h delta) s = .next (answered h 19 .stagePending [] s)) ∧
      (s.tb.preset = none → exec (.presetTime h delta) s = .next (answered h 19 .ok []
        { s with tb := { s.tb with preset := some delta } })))) ∧
  (∀ s d, s.tb.count ≠ s.tb.lastCount → s.tb.sync = .root → s.tb.preset = some d →
    ∃ t, exec .cycleStart s = .next t ∧ t.tb.offset = s.tb.offset + BitVec.ofInt 48 d ∧ t.tb.preset = none) ∧
  (∀ s d, s.tb.count ≠ s.tb.lastCount → s.tb.sync = .root → s.tb.preset = some d →
    let offset := s.tb.offset + BitVec.ofInt 48 d
    let mt := s.tb.lt + offset
    let count := mt.toNat / 2 ^ s.tb.params.exponent % 64
    ∃ e : Int,
      let u : State :=
        { s with
          tb := { s.tb with offset, preset := none, discOwed := true, rateAnchor := none, lastCount := (count + 1) % 64 }
          se := { s.se with ts := mt }
          io := (Io.bumpFree (raise (.meshTimeStep .root e) s.io)).onEs fun x =>
            { x with seen := none, ports := { x.ports with fp3 := { x.ports.fp3 with choiceDue := true } } } }
      exec .cycleStart s = exec .cycleStart u ∧ u.tb.count = count ∧ u.tb.count ≠ u.tb.lastCount) ∧
  (∀ i s t, exec i s = .next t → s.tb.sync = .root → t.tb.sync ≠ .root → t.tb.preset = none) ∧
  (∀ st s, ∃ t, exec (.pinReset st) s = .next t ∧ t.tb.preset = none) ∧
  (∀ h s, h.admitted → ∃ t, exec (.restart h) s = .next t ∧ t.tb.preset = s.tb.preset)

/-- R22: SET CALENDAR in ROOT and FREE takes MT as the anchor, the clamped week-second and the next generation, marks the
record valid and hands the Schedule Engine its notice; elsewhere it is refused. A beacon of count 0 carries the record. -/
def Obligations.SetCalendarWritesTheRecord : Prop :=
  (∀ h w s, h.admitted →
    (s.tb.sync = .root ∨ s.tb.sync = .free →
      exec (.setCalendar h w) s = .next (answered h 20 .ok []
        { s with
          tb := { s.tb with cal := {
            anchor := s.mt, weekSec := min 604799 w, gen := (s.tb.cal.gen + 1) % 256, valid := true,
            unmatched := s.tb.cal.unmatched } }
          se := { s.se with ts := s.mt } })) ∧
    (s.tb.sync ≠ .root → s.tb.sync ≠ .free → exec (.setCalendar h w) s = .next (answered h 20 .notRoot [] s))) ∧
  (∀ s mtb q, s.tb.cal.valid = true →
    (beaconOf s mtb q).cal =
      if mtb.toNat / 2 ^ s.tb.params.exponent % 64 = 0 then
        some { anchor := s.tb.cal.anchor, weekSec := s.tb.cal.weekSec, gen := s.tb.cal.gen }
      else none)

/-- R25: a quiet request of the controller and one of a distributor get the verdict of R25 and leave the quiet list it
gives; the list is empty at pin reset, emptied by every exit from ROOT and kept by RESTART. "Ascending" is by the signed difference of
mesh times (log 16, DEDUCED). -/
def Obligations.QuietRequestsAreJudged : Prop :=
  (∀ h t s, h.admitted →
    exec (.requestQuiet h t) s =
      .next (answered h 21 (quietVerdict t s.tb) [] { s with tb := quietTaken t s.tb })) ∧
  (∀ src query id t s, 1 ≤ s.io.fp.freeCells →
    exec (.quietRequest src query id t) s =
      .next { s with
        tb := quietTaken t s.tb
        io := (sendImage src { query, id, body := .quietReply (quietVerdict t s.tb) } (tookFrame .fp3 1 s.io)).2 }) ∧
  (∀ st s, ∃ t, exec (.pinReset st) s = .next t ∧ t.tb.quietList = []) ∧
  (∀ i s t, exec i s = .next t → s.tb.sync = .root → t.tb.sync ≠ .root → t.tb.quietList = []) ∧
  (∀ h s, h.admitted → ∃ t, exec (.restart h) s = .next t ∧ t.tb.quietList = s.tb.quietList)

/-! ## Parameters of the other blocks -/

/-- The parameter requests clamp what they carry, keep what they do not carry, and are answered OK; SET QUEUE PARAMETERS
refuses a port or class that does not exist, and READ ENTRY on the queue parameters returns them (R71). SET CLASSIFIER
PARAMETERS leaves the parameters in use as they are (log 33, DEDUCED). -/
def Obligations.ParameterRequestsClampAndWrite : Prop :=
  (∀ h g s, h.admitted → exec (.setFramePathParameters h g) s =
    .next (answered h 24 .ok [] (s.onIo (Io.onFp fun f => { f with gatewayId := max 1 (min 8 g) })))) ∧
  (∀ h (f : ClassifierFields) s, h.admitted → exec (.setClassifierParameters h f) s =
    .next (answered h 25 .ok [] { s with cl := { s.cl with params := {
      pmin := written 1 1000 f.pmin s.cl.params.pmin
      pmax := written 1 65535 f.pmax s.cl.params.pmax
      smax := written 40 1500 f.smax s.cl.params.smax
      tp := written 1 7 f.tp s.cl.params.tp
      idle := written 1 255 f.idle s.cl.params.idle } } })) ∧
  (∀ h o g s, h.admitted → exec (.setBackhaulParameters h o g) s =
    .next (answered h 27 .ok [] (s.onIo (Io.onEs fun e => { e with overhead := min 255 o, guardTime := min 255 g })))) ∧
  (∀ h (f : SteeringFields) s, h.admitted → exec (.setSteeringParameters h f) s =
    .next (answered h 28 .ok [] { s with su := { s.su with params := {
      hyst := writtenInt 0 30 f.hyst s.su.params.hyst
      thresh := writtenInt (-100) (-10) f.thresh s.su.params.thresh
      gameHyst := writtenInt 0 30 f.gameHyst s.su.params.gameHyst
      gameThr := writtenInt (-100) (-10) f.gameThr s.su.params.gameThr
      dwell := written 1 15 f.dwell s.su.params.dwell
      holdOff := written 1 255 f.holdOff s.su.params.holdOff } } })) ∧
  (∀ h (f : HandoffFields) s, h.admitted → exec (.setHandoffParameters h f) s =
    .next (answered h 29 .ok [] { s with hu := { s.hu with params := {
      claimDelay := written 1 16 f.claimDelay s.hu.params.claimDelay
      linger := written 1 16 f.linger s.hu.params.linger
      tctx := written 10000 2000000 f.tctx s.hu.params.tctx } } })) ∧
  (∀ h (f : ImageParamFields) s, h.admitted → exec (.setImageParameters h f) s =
    .next (answered h 45 .ok [] { s with ie := { s.ie with params := {
      announceTimeout := written 10000 2000000 (f.announce.map (·.1)) s.ie.params.announceTimeout
      announceRetries := written 0 5 (f.announce.map (·.2)) s.ie.params.announceRetries
      mapTimeout := written 10000 2000000 (f.map.map (·.1)) s.ie.params.mapTimeout
      mapRetries := written 0 5 (f.map.map (·.2)) s.ie.params.mapRetries
      verifyTimeout := written 100000 60000000 (f.verify.map (·.1)) s.ie.params.verifyTimeout
      verifyRetries := written 0 3 (f.verify.map (·.2)) s.ie.params.verifyRetries
      proposeTimeout := written 10000 2000000 (f.propose.map (·.1)) s.ie.params.proposeTimeout
      proposeRetries := written 0 5 (f.propose.map (·.2)) s.ie.params.proposeRetries
      roundsMax := written 1 32 f.roundsMax s.ie.params.roundsMax
      interval := written 1 240 f.interval s.ie.params.interval
      maxDeferrals := written 0 255 f.maxDeferrals s.ie.params.maxDeferrals
      forceAfter := f.forceAfter.getD s.ie.params.forceAfter
      lead := written 1 60 f.lead s.ie.params.lead } } })) ∧
  ((∀ h port cls (f : QueueFields) s, h.admitted →
    (3 < port → exec (.setQueueParameters h port cls f) s = .next (answered h 26 .notFound [] s)) ∧
    (3 < cls → exec (.setQueueParameters h port cls f) s = .next (answered h 26 .notFound [] s)) ∧
    (∀ p : Port, portNum p = port → cls ≤ 3 →
      let old := (s.io.port p).written.get cls
      let q := written 0 65535 f.quantum old.quantum
      let w : QParams :=
        { quantum := q
          cap := (match f.cap with
            | some c => max q (min 262143 c)
            | none => max old.cap q)
          borrow := f.borrow.getD old.borrow }
      exec (.setQueueParameters h port cls f) s = .next (answered h 26 .ok [] (s.onIo fun io => io.onPort p fun e =>
        { e with
          limit := e.limit.set cls (Sys2Proof.Machine.written 0 2048 f.limit (e.limit.get cls))
          written := e.written.set cls w })))) ∧
  (∀ h index s, h.readable →
    (16 ≤ index → exec (.readEntryQueueParameters h index) s = .next (answered h 4 .notFound [] s)) ∧
    (∀ (p : Port) (cls : Nat), cls ≤ 3 → index = 4 * portNum p + cls →
      let e := s.io.port p
      let w := e.written.get cls
      exec (.readEntryQueueParameters h index) s = .next (answered h 4 .ok
        [be 2 (e.limit.get cls) ++ be 2 w.quantum ++ be 3 w.cap ++ flagByte w.borrow] s))))

/-- R148: SET SCHEDULE PARAMETERS writes the clamped activity threshold, 4,096 at pin reset and kept by RESTART; the charge
of a minute event uses it. -/
def Obligations.SetScheduleParametersWritesTheThreshold : Prop :=
  (∀ h x s, h.admitted → exec (.setScheduleParameters h x) s =
    .next (answered h 30 .ok [] { s with se := { s.se with threshold := max 1 (min 1000000 x) } })) ∧
  (∀ st s, ∃ t, exec (.pinReset st) s = .next t ∧ t.se.threshold = 4096) ∧
  (∀ h s, h.admitted → ∃ t, exec (.restart h) s = .next t ∧ t.se.threshold = s.se.threshold) ∧
  (∀ (s : State) (i : Nat) (e : Station) (r : Radio) (a : Allowance), s.su.table[i]? = some (some e) →
    e.st = .serving r a → a.known = true → e.eff = some .metered →
    (chargeMinute s).su.table[i]? = some (some
      { e with st := .serving r { a with remaining := if s.se.threshold ≤ e.activity then a.remaining - 60 else a.remaining } }))

/-! ## Tables -/

/-- The class rule table (R50): what a write checks, clamps and marks, a clear, and a read. A profile code of 0 is ANY
(log 8), and ranges are compared as carried, before any clamp (log 20). The index is tested before the fields (log 45, the
model's choice). -/
def Obligations.ClassRulesAreWrittenClearedAndRead : Prop :=
  let marked (c : Classifier) (rules : List ClassRule) : Classifier :=
    { c with rules, flows := c.flows.map fun o => o.map fun f => { f with rematch := true } }
  (∀ h index (f : ClassRuleFields) s, h.admitted →
    let bad : Prop := f.rHi < f.rLo ∨ f.lHi < f.lLo ∨ f.sHi < f.sLo ∨ 31 < f.profile
    (48 ≤ index → exec (.writeEntryClassRule h index f) s = .next (answered h 5 .notFound [] s)) ∧
    (index < 48 → (bad ∨ f.proto = 0 ∨ 3 < f.proto) →
      exec (.writeEntryClassRule h index f) s = .next (answered h 5 .malformed [] s)) ∧
    (∀ p : RuleProto, index < 48 → ¬ bad → f.proto = ruleProtoCode p →
      exec (.writeEntryClassRule h index f) s = .next (answered h 5 .ok []
        { s with cl := marked s.cl (s.cl.rules.set index
            { inUse := true, proto := p, rLo := f.rLo, rHi := f.rHi, lLo := f.lLo, lHi := f.lHi
              sLo := min f.sLo 1518, sHi := min f.sHi 1518
              profile := if f.profile = 0 then none else some f.profile
              cls := min f.cls 3, essential := f.essential, pin := f.pin }) }))) ∧
  (∀ h index s, h.admitted →
    (s.cl.rules[index]? = none → exec (.clearEntryClassRule h index) s = .next (answered h 6 .notFound [] s)) ∧
    (∀ r, s.cl.rules[index]? = some r →
      exec (.clearEntryClassRule h index) s = .next (answered h 6 .ok []
        { s with cl := marked s.cl (s.cl.rules.set index { r with inUse := false }) }))) ∧
  (∀ h index s, h.readable →
    (s.cl.rules[index]? = none → exec (.readEntryClassRule h index) s = .next (answered h 4 .notFound [] s)) ∧
    (∀ r, s.cl.rules[index]? = some r →
      exec (.readEntryClassRule h index) s = .next (answered h 4 .ok [ruleBytes r] s)))

/-- The backhaul window table (R76): a write's refusals, its clamps, a clear, and reads of both copies. Bit k of the class
mask stands for class k (log 8), and a write or clear of the active copy is refused before its index is looked at (log 27);
on the staged copy the index is tested first, then the pending commit, then the fields (log 45, the model's choice). -/
def Obligations.WindowsAreWrittenClearedAndRead : Prop :=
  (∀ h index (f : WindowFields) s, h.admitted →
    let go := exec (.writeEntryBackhaulWindow h false index f) s
    let badOwner : Prop := f.kind = 2 ∧ (f.owner = 0 ∨ 8 < f.owner)
    (exec (.writeEntryBackhaulWindow h true index f) s = .next (answered h 5 .malformed [] s)) ∧
    (24 ≤ index → go = .next (answered h 5 .notFound [] s)) ∧
    (index < 24 → s.io.es.pending ≠ none → go = .next (answered h 5 .stagePending [] s)) ∧
    (index < 24 → s.io.es.pending = none → (f.kind = 0 ∨ 3 < f.kind ∨ badOwner) →
      go = .next (answered h 5 .malformed [] s)) ∧
    (∀ kind : WindowKind, index < 24 → s.io.es.pending = none → f.kind = windowKindCode kind → ¬ badOwner →
      let cycle := 2 ^ s.tb.params.exponent
      let w : Window :=
        { inUse := true
          start := min (cycle - 1) f.start
          length := max 1 (min cycle f.length)
          kind := kind
          owner := if kind = .owned then f.owner else 0
          mask := ⟨f.mask.testBit 0, f.mask.testBit 1, f.mask.testBit 2, f.mask.testBit 3⟩
          k := min 6 f.k
          c := min (2 ^ min 6 f.k - 1) f.c }
      go = .next (answered h 5 .ok [] (s.onIo (Io.onEs fun e => { e with staged := e.staged.set index w }))))) ∧
  (∀ h index s, h.admitted →
    let go := exec (.clearEntryBackhaulWindow h false index) s
    (exec (.clearEntryBackhaulWindow h true index) s = .next (answered h 6 .malformed [] s)) ∧
    (24 ≤ index → go = .next (answered h 6 .notFound [] s)) ∧
    (index < 24 → s.io.es.pending ≠ none → go = .next (answered h 6 .stagePending [] s)) ∧
    (∀ w, index < 24 → s.io.es.pending = none → s.io.es.staged[index]? = some w →
      go = .next (answered h 6 .ok [] (s.onIo (Io.onEs fun e =>
        { e with staged := e.staged.set index { w with inUse := false } }))))) ∧
  (∀ h active index s, h.readable →
    let copy := if active then s.io.es.active else s.io.es.staged
    (copy[index]? = none → exec (.readEntryBackhaulWindow h active index) s = .next (answered h 4 .notFound [] s)) ∧
    (∀ w, copy[index]? = some w →
      exec (.readEntryBackhaulWindow h active index) s = .next (answered h 4 .ok [windowBytes w] s)))

/-- The flow table (R65): a read returns the record, a clear removes it, a write is refused. The peer table (R79): a write
takes clamped values at once, a clear leaves an entry that stands for rate 100 and delay 0, a node outside 1..8 is not
found. The station table (R100) and the context table (R125): reads, the refused writes, the clear of a station entry
without a context and of its unpinned flows, and what that clear leaves alone. The records give their fields in the order of
their tables; the code of each state and the bytes of an optional value and of an unknown server are the model's choice
(logs 8 and 39). -/
def Obligations.FlowPeerStationAndContextEntries : Prop :=
  ((∀ h slot s, h.readable →
    (s.cl.flowAt slot = none → exec (.readEntryFlow h slot) s = .next (answered h 4 .notFound [] s)) ∧
    (∀ f, s.cl.flowAt slot = some f → exec (.readEntryFlow h slot) s = .next (answered h 4 .ok [
      be 6 f.key.station.toNat ++ be 1 (protoCode f.key.proto) ++ be 2 f.key.rPort ++ be 2 f.key.lPort ++
      be 2 (f.key.rAddr % 65536) ++ be 1 f.ruleClass ++ be 1 f.essential.toNat ++ be 1 f.pinned.toNat ++
      be 1 f.rematch.toNat ++ be 1 f.q ++ be 1 f.detected.toNat ++
      (match f.hint with
       | some k => be 1 1 ++ be 1 k
       | none => be 1 0) ++
      be 1 f.clsClass ++ be 1 f.effClass ++ be 1 f.suppressed.toNat ++ be 4 f.packets ++ be 4 f.bytes ++
      be 6 f.lastSeen.toNat ++ be 1 f.cur.toNat ++ be 1 f.prev.toNat ++ be 1 f.idle] s))) ∧
  (∀ h slot s, h.admitted → exec (.writeEntryFlow h slot) s = .next (answered h 5 .malformed [] s)) ∧
  (∀ h slot s, h.admitted →
    (s.cl.flowAt slot = none → exec (.clearEntryFlow h slot) s = .next (answered h 6 .notFound [] s)) ∧
    (∀ f, s.cl.flowAt slot = some f →
      exec (.clearEntryFlow h slot) s = .next (answered h 6 .ok []
        { s with cl := { s.cl with
            flows := s.cl.flows.set slot none
            counters := { s.cl.counters with flowsCleared := satInc s.cl.counters.flowsCleared } } }))) ∧
  (∀ h node rate delay s, h.admitted → 1 ≤ node → node ≤ 8 →
    exec (.writeEntryPeer h node rate delay) s = .next (answered h 5 .ok [] (s.onIo (Io.onEs fun e =>
      { e with peers := e.peers.set (node - 1) { inUse := true, rate := max 6 (min 2400 rate), delay := min 1023 delay } })))) ∧
  (∀ h node s q, h.admitted → 1 ≤ node → node ≤ 8 → s.io.es.peers[node - 1]? = some q →
    exec (.clearEntryPeer h node) s = .next (answered h 6 .ok [] (s.onIo (Io.onEs fun e =>
      { e with peers := e.peers.set (node - 1) { q with inUse := false } })))) ∧
  (∀ h node s q, h.readable → 1 ≤ node → node ≤ 8 → s.io.es.peers[node - 1]? = some q →
    exec (.readEntryPeer h node) s = .next (answered h 4 .ok
      [flagByte q.inUse ++ be 2 (if q.inUse then q.rate else 100) ++ be 2 (if q.inUse then q.delay else 0)] s)) ∧
  (∀ h node rate delay s, (node = 0 ∨ 8 < node) →
    (h.admitted → exec (.writeEntryPeer h node rate delay) s = .next (answered h 5 .notFound [] s)) ∧
    (h.admitted → exec (.clearEntryPeer h node) s = .next (answered h 6 .notFound [] s)) ∧
    (h.readable → exec (.readEntryPeer h node) s = .next (answered h 4 .notFound [] s)))) ∧
  ((∀ h slot s, h.readable →
    (s.su.table[slot]?.join = none → exec (.readEntryStation h slot) s = .next (answered h 4 .notFound [] s)) ∧
    (∀ e, s.su.table[slot]?.join = some e →
      let level (l : Option Int) : List Byte := match l with
        | some v => be 1 1 ++ beInt 2 v
        | none => be 1 0
      let heard := e.hearings.filterMap id
      let allowance (a : Allowance) : List Byte := be 3 a.remaining ++ be 1 a.day ++ be 1 a.known.toNat
      let head : List Byte := match e.st with
        | .serving r _ => be 1 1 ++ be 1 (portNum (radioPort r))
        | .arriving (some r) _ => be 1 2 ++ be 1 1 ++ be 1 (portNum (radioPort r)) ++ be 1 0
        | .arriving none _ => be 1 2 ++ be 1 0 ++ be 1 1
        | .detached _ => be 1 3
        | .away n p => be 1 4 ++ be 1 (n.getD 0) ++ match p with
          | some (m, c) => be 1 1 ++ be 1 m ++ be 6 c.toNat
          | none => be 1 0
      let tail : List Byte := match e.st with
        | .serving _ a => allowance a
        | .arriving _ c => be 3 c
        | .detached a => allowance a
        | .away _ _ => []
      exec (.readEntryStation h slot) s = .next (answered h 4 .ok [
        be 6 e.addr.toNat ++ head ++ be 1 e.profile ++ level e.level ++ level e.own ++ be 1 e.heard.toNat ++
        be 1 heard.length ++ (heard.map fun r => be 1 r.node ++ beInt 2 r.level ++ be 6 r.mt.toNat).flatten ++ tail ++
        be 4 e.activity ++ be 2 e.dwell ++ be 1 e.holdOff ++ be 6 e.since.toNat] s)) ∧
    (s.hu.ctxAt slot = none → exec (.readEntryContext h slot) s = .next (answered h 4 .notFound [] s)) ∧
    (∀ c, s.hu.ctxAt slot = some c →
      let allowance (a : Allowance) : List Byte := be 3 a.remaining ++ be 1 a.day ++ be 1 a.known.toNat
      let some? (a : Option Allowance) : List Byte := match a with
        | some v => be 1 1 ++ allowance v
        | none => be 1 0
      let hold (q : List QFrame) : List Byte := be 2 q.length ++ be 2 (queueCells q)
      let hints : List Byte := be 1 c.hints.length ++
        (c.hints.map fun h => be 1 (protoCode h.proto) ++ be 2 h.rPort ++ be 2 h.lPort ++ be 4 h.rAddr).flatten
      let named (role st : Nat) : List Byte := be 1 role ++ be 1 st ++ be 6 c.station.toNat ++ be 1 c.peer
      let fields : List Byte := match c.st with
        | .arrive w =>
          match w.taken with
          | none => named 1 1 ++ hold w.hold ++ be 2 w.received ++ some? w.own ++ hints ++ be 2 c.drops ++
              be 6 w.deadline.toNat
          | some k => named 1 2 ++ hold w.hold ++ be 2 w.received ++ be 2 k.expected ++ allowance k.carried ++ some? w.own ++
              hints ++ be 2 c.drops ++ be 6 w.deadline.toNat
        | .depart fl cut _ n o sn => named 2 (if fl then 4 else 3) ++ be 6 cut.toNat ++ be 2 n ++ be 2 o ++ some? sn ++
            hints ++ be 2 c.drops
        | .await w p ch cut n o => named 2 5 ++ be 1 p ++ be 6 cut.toNat ++ hold w.hold ++ be 2 w.received ++
            (match w.taken with
             | some k => be 1 1 ++ be 2 k.expected ++ allowance k.carried
             | none => be 1 0) ++
            some? w.own ++ be 3 ch ++ be 2 n ++ be 2 o ++ hints ++ be 2 c.drops ++ be 6 w.deadline.toNat
      exec (.readEntryContext h slot) s = .next (answered h 4 .ok [fields] s))) ∧
  (∀ h slot s, h.admitted →
    exec (.writeEntryStation h slot) s = .next (answered h 5 .malformed [] s) ∧
    exec (.writeEntryContext h slot) s = .next (answered h 5 .malformed [] s) ∧
    exec (.clearEntryContext h slot) s = .next (answered h 6 .malformed [] s) ∧
    (s.su.table[slot]?.join = none → exec (.clearEntryStation h slot) s = .next (answered h 6 .notFound [] s)) ∧
    (∀ e, s.su.table[slot]?.join = some e →
      ((∃ x ∈ s.hu.slots, ∃ c, x.ctx = some c ∧ c.station = e.addr) →
        exec (.clearEntryStation h slot) s = .next (answered h 6 .wrongState [] s)) ∧
      ((∀ x ∈ s.hu.slots, ∀ c, x.ctx = some c → c.station ≠ e.addr) →
        ∃ t, exec (.clearEntryStation h slot) s = .next (answered h 6 .ok [] t) ∧
          t.su = { s.su with
            table := s.su.table.map fun o => o.filter fun x => x.addr ≠ e.addr
            counters := { s.su.counters with stationsCleared := satInc s.su.counters.stationsCleared } } ∧
          (∀ i f, s.cl.flowAt i = some f → f.key.station ≠ e.addr → t.cl.flowAt i = some f) ∧
          (∀ i f, s.cl.flowAt i = some f → f.key.station = e.addr → f.pinned = false → t.cl.flowAt i = none) ∧
          t.cl.rules = s.cl.rules ∧ t.cl.params = s.cl.params ∧ t.cl.inUse = s.cl.inUse ∧
          t.io = s.io ∧ t.tb = s.tb ∧ t.hu = s.hu ∧ t.se = s.se ∧ t.ie = s.ie))))

/-- The membership table (R127), the schedule windows (R129) and the profile table (R128): what a write checks, clamps and
keeps, a clear, and reads of both copies, those of an active profile with its overrides. A group address is one with bit
40 set (log 7, PRESUMED); a write or clear of the active copy is refused before its index or id is looked at (log 27,
DEDUCED); a write of a profile carries its LIMIT matrix as four pairs or not at all, and a read lists the fields in the
order of R128 (log 8). The order of the refusals is the model's choice (log 45): the index or id first, then the pending
commit, then the fields, but for a write of the membership table the fields before the pending commit. -/
def Obligations.MembersWindowsAndProfilesAreWrittenClearedAndRead : Prop :=
  ((∀ h index a profile s, h.admitted →
     let go := exec (.writeEntryMembership h false index a profile) s
     let bad : Prop := profile = 0 ∨ 31 < profile ∨ a.getLsbD 40 = true
     (exec (.writeEntryMembership h true index a profile) s = .next (answered h 5 .malformed [] s)) ∧
     (128 ≤ index → go = .next (answered h 5 .notFound [] s)) ∧
     (index < 128 → bad → go = .next (answered h 5 .malformed [] s)) ∧
     (index < 128 → ¬ bad → s.se.pending ≠ none → go = .next (answered h 5 .stagePending [] s)) ∧
     (index < 128 → ¬ bad → s.se.pending = none →
       go = .next (answered h 5 .ok [] { s with se := { s.se with staged := { s.se.staged with
         members := s.se.staged.members.set index { inUse := true, addr := a, profile } } } }))) ∧
   (∀ h index (f : SchedWindowFields) s, h.admitted →
     let go := exec (.writeEntryScheduleWindow h false index f) s
     let bad : Prop := f.kind = 0 ∨ 5 < f.kind ∨ 31 < f.profile
     (exec (.writeEntryScheduleWindow h true index f) s = .next (answered h 5 .malformed [] s)) ∧
     (256 ≤ index → go = .next (answered h 5 .notFound [] s)) ∧
     (index < 256 → s.se.pending ≠ none → go = .next (answered h 5 .stagePending [] s)) ∧
     (index < 256 → s.se.pending = none → bad → go = .next (answered h 5 .malformed [] s)) ∧
     (∀ kind : SchedKind, index < 256 → s.se.pending = none → f.profile ≤ 31 → f.kind = schedKindCode kind →
       let start := min 10079 f.start
       let w : SchedWindow :=
         { inUse := true, profile := f.profile, start, stop := max (start + 1) (min 10080 f.stop), kind }
       go = .next (answered h 5 .ok [] { s with se := { s.se with staged := { s.se.staged with
         windows := s.se.staged.windows.set index w } } }))) ∧
   (∀ h index s, h.admitted →
     (exec (.clearEntryMembership h true index) s = .next (answered h 6 .malformed [] s)) ∧
     (128 ≤ index → exec (.clearEntryMembership h false index) s = .next (answered h 6 .notFound [] s)) ∧
     (index < 128 → s.se.pending ≠ none →
       exec (.clearEntryMembership h false index) s = .next (answered h 6 .stagePending [] s)) ∧
     (∀ m, index < 128 → s.se.pending = none → s.se.staged.members[index]? = some m →
       exec (.clearEntryMembership h false index) s = .next (answered h 6 .ok []
         { s with se := { s.se with staged := { s.se.staged with
           members := s.se.staged.members.set index { m with inUse := false } } } })) ∧
     (exec (.clearEntryScheduleWindow h true index) s = .next (answered h 6 .malformed [] s)) ∧
     (256 ≤ index → exec (.clearEntryScheduleWindow h false index) s = .next (answered h 6 .notFound [] s)) ∧
     (index < 256 → s.se.pending ≠ none →
       exec (.clearEntryScheduleWindow h false index) s = .next (answered h 6 .stagePending [] s)) ∧
     (∀ w, index < 256 → s.se.pending = none → s.se.staged.windows[index]? = some w →
       exec (.clearEntryScheduleWindow h false index) s = .next (answered h 6 .ok []
         { s with se := { s.se with staged := { s.se.staged with
           windows := s.se.staged.windows.set index { w with inUse := false } } } }))) ∧
   (∀ h active index s, h.readable →
     let copy := if active then s.se.active else s.se.staged
     (copy.members[index]? = none → exec (.readEntryMembership h active index) s = .next (answered h 4 .notFound [] s)) ∧
     (∀ m, copy.members[index]? = some m →
       exec (.readEntryMembership h active index) s = .next (answered h 4 .ok
         [flagByte m.inUse ++ be 6 m.addr.toNat ++ be 1 m.profile] s)) ∧
     (copy.windows[index]? = none →
       exec (.readEntryScheduleWindow h active index) s = .next (answered h 4 .notFound [] s)) ∧
     (∀ w, copy.windows[index]? = some w →
       exec (.readEntryScheduleWindow h active index) s = .next (answered h 4 .ok
         [flagByte w.inUse ++ be 1 w.profile ++ be 2 w.start ++ be 2 w.stop ++ be 1 (schedKindCode w.kind)] s)))) ∧
  ((∀ h id (f : ProfileFields) s, h.admitted →
     let go := exec (.writeEntryProfile h false id f) s
     let bad : Prop := (∃ x, f.default = some x ∧ x ≠ 1 ∧ x ≠ 2) ∨ (∃ x, f.exhausted = some x ∧ x ≠ 3 ∧ x ≠ 4) ∨
       ∃ l, f.matrix = some l ∧ ∃ a ∈ l, a.action = 0 ∨ 3 < a.action
     (exec (.writeEntryProfile h true id f) s = .next (answered h 5 .malformed [] s)) ∧
     ((id = 0 ∨ 31 < id) → go = .next (answered h 5 .notFound [] s)) ∧
     (1 ≤ id → id ≤ 31 → s.se.pending ≠ none → go = .next (answered h 5 .stagePending [] s)) ∧
     (1 ≤ id → id ≤ 31 → s.se.pending = none → bad → go = .next (answered h 5 .malformed [] s)) ∧
     (∀ p, 1 ≤ id → id ≤ 31 → s.se.pending = none → ¬ bad → s.se.staged.profiles[id - 1]? = some p →
       (∀ l, f.matrix = some l → l.length = 4) →
       let act (a : ActionFields) : Action :=
         if a.action = 1 then .pass else if a.action = 2 then .demote (min a.target 3) else .drop
       let q : Profile :=
         { default := (match f.default with
             | none => p.default
             | some x => if x = 1 then .allow else .metered)
           daily := (match f.daily with
             | none => p.daily
             | some l => l.map (min 1440))
           fallback := (match f.fallback with
             | none => p.fallback
             | some x => min 1440 x)
           exhausted := (match f.exhausted with
             | none => p.exhausted
             | some x => if x = 3 then .limit else .block)
           matrix := (match f.matrix with
             | some [a, b, c, d] => ⟨act a, act b, act c, act d⟩
             | _ => p.matrix) }
       go = .next (answered h 5 .ok [] { s with se := { s.se with staged := { s.se.staged with
         profiles := s.se.staged.profiles.set (id - 1) q } } }))) ∧
   (∀ h id s, h.admitted →
     (exec (.clearEntryProfile h true id) s = .next (answered h 6 .malformed [] s)) ∧
     ((id = 0 ∨ 31 < id) → exec (.clearEntryProfile h false id) s = .next (answered h 6 .notFound [] s)) ∧
     (1 ≤ id → id ≤ 31 → s.se.pending ≠ none →
       exec (.clearEntryProfile h false id) s = .next (answered h 6 .stagePending [] s)) ∧
     (1 ≤ id → id ≤ 31 → s.se.pending = none →
       let q : Profile :=
         { default := .allow, daily := [1440, 1440, 1440, 1440, 1440, 1440, 1440], fallback := 0, exhausted := .limit
           matrix := ⟨.demote 2, .demote 2, .pass, .pass⟩ }
       exec (.clearEntryProfile h false id) s = .next (answered h 6 .ok []
         { s with se := { s.se with staged := { s.se.staged with profiles := s.se.staged.profiles.set (id - 1) q } } }))) ∧
   (∀ h active id s, h.readable →
     let copy := if active then s.se.active else s.se.staged
     ((id = 0 ∨ 31 < id) → exec (.readEntryProfile h active id) s = .next (answered h 4 .notFound [] s)) ∧
     (∀ p, 1 ≤ id → id ≤ 31 → copy.profiles[id - 1]? = some p →
       exec (.readEntryProfile h active id) s = .next (answered h 4 .ok
         [profileBytes p ++ if active then overridesBytes ((s.se.overrides[id - 1]?).getD {}) else []] s))))
/-! ## Commits and discards -/

/-- R86, and the DISCARD of R131: the active copies over the staged ones, no commit left pending, OK in every case. -/
def Obligations.DiscardsRestoreTheStagedCopies : Prop :=
  ∀ h s, h.admitted →
    exec (.discardWindowTable h) s = .next (answered h 8 .ok []
      (s.onIo (Io.onEs fun e => { e with staged := e.active, pending := none }))) ∧
    exec (.discardScheduleTables h) s = .next (answered h 8 .ok []
      { s with se := { s.se with staged := s.se.active, pending := none } })

/-- COMMIT on the window table (R83 to R85) and on the schedule tables (R130 to R132): refused while one is pending, for
an unknown method and for invalid tables, in this order (log 53, the model's choice); NOW takes effect at once, on the
schedule tables with the profiles and effective states of the entries, the flows marked for re-match (R52), and
STATE_CHANGED in slot order (log 41, the model's choice); the other methods become pending. Under NOW the window in effect
is found again and opens inside the COMMIT as at a WINDOW_OPENING, before its response is placed and after
WINDOW_COMMITTED is raised (log 46, the model's choice). A TABLE_INVALID result names the first entry that fails, in the
order of the indices and of membership, profiles, windows; the table ids in it are the model's choice (log 8). -/
def Obligations.CommitsAreJudged : Prop :=
  (∀ h method s, h.admitted →
    let go := exec (.commitWindowTable h method) s
    let fails := WindowFails (2 ^ s.tb.params.exponent) s.io.es.staged
    let valid := WindowsValid (2 ^ s.tb.params.exponent) s.io.es.staged
    (s.io.es.pending ≠ none → go = .next (answered h 7 .stagePending [] s)) ∧
    (s.io.es.pending = none → (method = 0 ∨ 4 < method) → go = .next (answered h 7 .malformed [] s)) ∧
    (∀ i, s.io.es.pending = none → 1 ≤ method → method ≤ 4 → fails i → (∀ j, j < i → ¬ fails j) →
      go = .next (answered h 7 .tableInvalid [be 1 3 ++ be 2 i] s)) ∧
    (s.io.es.pending = none → method = 1 → valid →
      let committed : State := s.onIo fun io => raise (.windowCommitted .now s.mt)
        ((io.onEs fun e => { e with active := e.staged, pending := none, seen := none }).onPort .fp3 fun x =>
          { x with choiceDue := true })
      let now := committed.io.es.inEffect s.tb
      let noted : State := committed.onIo fun io =>
        (io.onEs fun e => { e with seen := some now }).onPort .fp3 fun x => { x with choiceDue := true }
      (now = .gap ∨ s.tb.quietNow = true → go = .next (answered h 7 .ok [] noted)) ∧
      ∃ t, exec .windowOpening committed = .next t ∧ go = .next (answered h 7 .ok [] t)) ∧
    (∀ m : WindowMethod, s.io.es.pending = none → 2 ≤ method → method = windowMethodCode m → valid →
      go = .next (answered h 7 .ok [] (s.onIo (Io.onEs fun e => { e with pending := some m }))))) ∧
  (∀ h method s, h.admitted →
    let go := exec (.commitScheduleTables h method) s
    (s.se.pending ≠ none → go = .next (answered h 7 .stagePending [] s)) ∧
    (s.se.pending = none → (method = 0 ∨ 3 < method) → go = .next (answered h 7 .malformed [] s)) ∧
    (∀ t i, s.se.pending = none → 1 ≤ method → method ≤ 3 → SchedFails s.se.staged t i →
      (∀ u j, SchedFails s.se.staged u j → t < u ∨ (t = u ∧ i ≤ j)) →
      go = .next (answered h 7 .tableInvalid [be 1 t ++ be 2 i] s)) ∧
    (∀ m : SchedMethod, s.se.pending = none → 2 ≤ method → method = schedMethodCode m → SchedValid s.se.staged →
      go = .next (answered h 7 .ok [] { s with se := { s.se with pending := some m } })) ∧
    (s.se.pending = none → method = 1 → SchedValid s.se.staged →
      ∃ t, go = .next (answered h 7 .ok [] t) ∧
        t.se.active = s.se.staged ∧ t.se.staged = s.se.staged ∧ t.se.pending = none ∧
        t.se.overrides = s.se.overrides ∧ t.se.minute = s.se.minute ∧ t.se.ts = s.se.ts ∧
        (t.io.cu.events.get .schedule).pending = true ∧ t.tb = s.tb ∧ t.hu = s.hu ∧ t.ie = s.ie ∧
        (∀ (i : Nat) (e : Station), s.su.table[i]? = some (some e) →
          ∃ v, t.su.table[i]? = some (some { e with profile := s.se.staged.member e.addr, eff := v }) ∧
            (StationsDistinct s → e.st.served = true → v = t.se.effective (s.se.staged.member e.addr) e.st)) ∧
        ∀ (i : Nat) (f : Flow), s.cl.flows[i]? = some (some f) →
          ∃ g, t.cl.flows[i]? = some (some g) ∧ (g.rematch = true ↔ f.rematch = true ∨
            ∃ e, some e ∈ s.su.table ∧ e.addr = f.key.station ∧ e.profile ≠ s.se.staged.member e.addr)) ∧
    (StationsDistinct s → s.se.pending = none → method = 1 → SchedValid s.se.staged →
      go = .next (answered h 7 .ok [] (schedCommitted .now s))))

/-! ## Requests of the Control Unit -/

/-- SET EVENT ENABLES, ACK EVENTS (R177, R178) and SET ADMISSION (R173). Bit code - 1 of a mask names a category (log 8, the
model's choice). The enables are written first, and then every category that comes to report sends its notice, in the order
of the codes (log 27, DEDUCED); a notice without a controller is not sent, and one without cells or room is lost and counted.
SET ADMISSION looks at the port before the setting (log 44, the model's choice). -/
def Obligations.EventAndAdmissionRequests : Prop :=
  (∀ h mask s, h.admitted →
    let bit (c : Category) : Bool := mask.testBit (categoryCode c - 1)
    let comes (c : Category) : Prop :=
      bit c = true ∧ (s.io.cu.events.get c).enable = false ∧ (s.io.cu.events.get c).pending = true
    let enabled : Io → Io := mapEvents fun c r => { r with enable := bit c }
    (∀ c, ((enabled s.io).cu.events.get c) = { s.io.cu.events.get c with enable := bit c }) ∧
    ((∀ c, ¬ comes c) → exec (.setEventEnables h mask) s = .next (answered h 9 .ok [] (s.onIo enabled))) ∧
    (∀ c, comes c → (∀ d, comes d → d = c) →
      exec (.setEventEnables h mask) s = .next (answered h 9 .ok [] (s.onIo fun io => sendNotice c (enabled io)))) ∧
    (∀ l : List Category, (∀ c, c ∈ l ↔ comes c) → l.Pairwise (fun c d => categoryCode c < categoryCode d) →
      exec (.setEventEnables h mask) s = .next (answered h 9 .ok []
        (s.onIo fun io => l.foldl (fun x c => sendNotice c x) (enabled io)))) ∧
    exec (.ackEvents h mask) s = .next (answered h 10 .ok [] (s.onIo (mapEvents fun c r =>
      if bit c then { pending := false, enable := r.enable, first := none, count := 0 } else r)))) ∧
  (∀ (c : Category) (io : Io), (io.cu.reg = none → sendNotice c io = io) ∧
    ∀ e reg, (io.cu.events.get c).first = some e → io.cu.reg = some reg →
      let payload := be 1 io.fp.nodeId ++ be 1 (categoryCode e.category) ++ be 2 (io.cu.events.get c).count ++
        be 1 (eventCode e).2 ++ be 1 (eventDetail e).length ++ eventDetail e
      let n := (18 + payload.length + 255) / 256
      let p := if reg.node = io.fp.nodeId then reg.port else .fp3
      let lost (x : Io) : Io := countCu (fun k => { k with noticesLost := satInc k.noticesLost }) x
      let told (x : Event) (y : Io) : Io := if c = .control then y else raiseBuffer x y
      (n ≤ io.fp.freeCells → (io.port p).mgmt.length < 16 →
        sendNotice c io = countCu (fun k => { k with noticesSent := satInc k.noticesSent })
          ((takeCells n io).onPort p fun x =>
            { x with
              mgmt := x.mgmt ++ [{
                hdr := some { src := io.fp.nodeId, dst := reg.node }
                link := if reg.node = io.fp.nodeId then some reg.addr else none
                content := .notice payload
                cells := n }]
              choiceDue := true })) ∧
      (io.fp.freeCells < n →
        sendNotice c io = lost (told (.poolExhausted p .notice n)
          (countFp (fun k => { k with poolFull := k.poolFull.inc p }) io))) ∧
      (n ≤ io.fp.freeCells → 16 ≤ (io.port p).mgmt.length →
        sendNotice c io = lost (told (.mgmtDrop p .notice)
          (countEs p (fun k => { k with mgmtFull := satInc k.mgmtFull }) (freeCells n (takeCells n io)))))) ∧
  (∀ h port setting s, h.admitted →
    (3 < port → exec (.setAdmission h port setting) s = .next (answered h 11 .notFound [] s)) ∧
    (port ≤ 3 → (setting = 0 ∨ 3 < setting) →
      exec (.setAdmission h port setting) s = .next (answered h 11 .malformed [] s)) ∧
    (∀ (p : Port) (a : Admission), portNum p = port → admissionCode a = setting →
      exec (.setAdmission h port setting) s = .next (answered h 11 .ok []
        (s.onIo (Io.onCu fun c => { c with admission := c.admission.set p a })))))

/-- REGISTER CONTROLLER (R176): node 0 removes the registration; a bad port or a group address is refused; otherwise the
registration is written and every pending and enabled category sends its notice in the order of the codes. A node above
8 is clamped (the model's choice, log 22); a group address is one with bit 40 set (log 7, PRESUMED). -/
def Obligations.RegisterControllerWritesTheRegistration : Prop :=
  ∀ h node port (a : Addr) s, h.admitted →
    let go := exec (.registerController h node port a) s
    (node = 0 → go = .next (answered h 12 .ok [] (s.onIo (Io.onCu fun c => { c with reg := none })))) ∧
    (node ≠ 0 → (2 < port ∨ a.getLsbD 40 = true) → go = .next (answered h 12 .malformed [] s)) ∧
    (∀ p : Port, node ≠ 0 → port ≤ 2 → portNum p = port → a.getLsbD 40 = false →
      let waiting := [Category.sync, .station, .handoff, .schedule, .flow, .backhaul, .buffer, .image, .control].filter
        fun c => (s.io.cu.events.get c).pending && (s.io.cu.events.get c).enable
      go = .next (answered h 12 .ok [] (s.onIo fun io => waiting.foldl (fun x c => sendNotice c x)
        (io.onCu fun c => { c with reg := some { node := max 1 (min 8 node), port := p, addr := a } }))))

/-- RESTART (R181) with the restart of every block (R48, R67, R88, R102, R126, R150, R172): what is kept and what is
cleared, then the RESTARTED event and the OK response. The classifier parameters are kept as written and as in use
(log 33), and the steering output too (log 12, the model's choice); a flash operation in flight goes on, a block read for no
distribution; the query number is kept (R165). -/
def Obligations.RestartKeepsAndClears : Prop :=
  ∀ h s, h.admitted → ∃ t : State,
    exec (.restart h) s = .next (answered h 13 .ok [] (t.onIo (raise (.restarted s.io.fp.nodeId s.mt)))) ∧
    t.pending = s.pending ∧
    t.tb = { s.tb with counters := {} } ∧
    t.io.fp = { s.io.fp with freeCells := 2048 - s.ie.readCells, lowestFree := 2048, counters := {} } ∧
    t.io.freeCount = s.io.freeCount ∧
    (∀ p, t.io.port p =
      { mgmt := [], queue := ⟨[], [], [], []⟩, credit := ⟨0, 0, 0, 0⟩, limit := (s.io.port p).limit
        written := (s.io.port p).written, inUse := (s.io.port p).written
        tx := (match (s.io.port p).tx with
          | .free => .free
          | .busy f => .givenUp f.kind
          | .givenUp k => .givenUp k)
        choiceDue := false, counters := {} }) ∧
    t.io.es.beaconPos = none ∧ t.io.es.active = s.io.es.active ∧ t.io.es.staged = s.io.es.active ∧
    t.io.es.pending = none ∧ t.io.es.peers = s.io.es.peers ∧ t.io.es.overhead = s.io.es.overhead ∧
    t.io.es.guardTime = s.io.es.guardTime ∧
    t.io.cu.admission = s.io.cu.admission ∧ t.io.cu.queue = [] ∧ t.io.cu.reg = s.io.cu.reg ∧ t.io.cu.counters = {} ∧
    (∀ c, t.io.cu.events.get c =
      { pending := false, enable := (s.io.cu.events.get c).enable, first := none, count := 0 }) ∧
    t.cl.rules = s.cl.rules ∧ t.cl.params = s.cl.params ∧ t.cl.inUse = s.cl.inUse ∧ t.cl.counters = {} ∧
    t.cl.flows.length = s.cl.flows.length ∧ (∀ i, s.cl.flowAt i = none → t.cl.flowAt i = none) ∧
    (∀ i f, s.cl.flowAt i = some f → f.pinned = false → t.cl.flowAt i = none) ∧
    (∀ i f, s.cl.flowAt i = some f → f.pinned = true → t.cl.flowAt i = some
      { f with
        hint := none, clsClass := f.ruleClass, effClass := f.ruleClass, suppressed := false
        packets := 0, bytes := 0, cur := false, prev := false, idle := 0 }) ∧
    t.su.table = List.replicate 192 none ∧ t.su.scanPos = 0 ∧ t.su.params = s.su.params ∧ t.su.steers = s.su.steers ∧
    t.su.counters = {} ∧
    t.hu = { s.hu with slots := s.hu.slots.map fun x => { x with ctx := none }, counters := {} } ∧
    t.se = { s.se with staged := s.se.active, pending := none, counters := {} } ∧
    t.ie.slot0 = s.ie.slot0 ∧ t.ie.slot1 = s.ie.slot1 ∧ t.ie.active = s.ie.active ∧ t.ie.switchOut = s.ie.switchOut ∧
    t.ie.pendingOp = s.ie.pendingOp ∧ t.ie.params = s.ie.params ∧ t.ie.writeQ = [] ∧ t.ie.counters = {} ∧
    t.ie.queryNum = s.ie.queryNum ∧ (s.ie.dist = none → t.ie.dist = none) ∧
    t.ie.inFlight = (match s.ie.inFlight with
      | some (.blockRead n l i c _) => some (.blockRead n l i c false)
      | o => o) ∧
    (∀ d, s.ie.dist = some d → t.ie.dist =
      some { d with phase := if d.phase = .done then .done else .aborted, query := none })

/-- READ STATUS (R179): for each block the fields its chapter lists, in that order and in the widths of 10.6; READ
COUNTERS (R180): each block's counters in the order of its table, 4 bytes each, per port where kept so; CLEAR COUNTERS
(R180, R31) and READ SCHEDULE STATE (R149). Presence bytes, list counts and codes the chapters do not give are the model's
choice (log 8, log 39); the classifier parameters are given as written, not as in use (log 33, DEDUCED); an entry of the
write queue is given without its bytes (log 62, the model's choice). -/
def Obligations.StatusAndCounterRequests : Prop :=
  (∀ h block s, h.readable → (block = 0 ∨ 9 < block) →
    exec (.readStatus h block) s = .next (answered h 1 .malformed [] s) ∧
    exec (.readCounters h block) s = .next (answered h 2 .malformed [] s)) ∧
  (∀ h s, h.readable →
    let gives (block : Nat) (recs : List (List Byte)) : Prop :=
      exec (.readStatus h block) s = .next (answered h 1 .ok recs s)
    let stations (p : Station → Bool) : List Byte := be 2 ((s.su.table.filterMap id).countP p)
    let flows (p : Flow → Bool) : List Byte := be 2 ((s.cl.flows.filterMap id).countP p)
    let contexts (k : Nat) : List Byte := be 2 ((s.hu.slots.filterMap (·.ctx)).countP fun c => ctxStateCode c.st = k)
    gives 1 [
      be 1 (syncCode s.tb.sync) ++ optBytes (fun (r : RootRef) => be 1 r.node ++ be 1 r.prio) s.tb.followed ++
      be 6 s.mt.toNat ++ be 6 s.tb.offset.toNat ++ be 3 s.tb.n ++ be 3 s.tb.nBase ++ be 2 s.tb.d ++
      be 1 s.tb.rateAnchor.isSome.toNat ++
      be 6 s.tb.cal.anchor.toNat ++ be 3 s.tb.cal.weekSec ++ be 1 s.tb.cal.gen ++ be 1 s.tb.cal.valid.toNat ++
      be 1 s.tb.cal.unmatched.toNat ++ be 1 s.tb.preset.isSome.toNat ++
      listBytes (fun t : Time => be 6 t.toNat) s.tb.quietList ++ optBytes (fun t : Time => be 6 t.toNat) s.tb.quietMark ++
      be 2 s.tb.consec ++ be 1 s.tb.listenWatch ++ be 1 s.tb.beaconWatch ++
      be 1 s.tb.params.priority ++ be 1 s.tb.params.rootWatch ++ be 1 s.tb.params.beaconWatch ++
      be 2 s.tb.params.lockCount ++ be 1 s.tb.params.lockWindow ++ be 1 s.tb.params.exponent] ∧
    (let cells (p : Port) : Nat :=
       let e := s.io.port p
       queueCells e.mgmt + (queueCells e.queue.c0 + queueCells e.queue.c1 + queueCells e.queue.c2 + queueCells e.queue.c3) +
         (match e.tx with
          | .busy f => f.cells
          | _ => 0)
     gives 2 [
      be 1 s.io.fp.gateway.toNat ++ be 1 s.io.fp.nodeId ++ be 1 s.io.fp.gatewayId ++ be 2 s.io.fp.freeCells ++
      be 2 s.io.fp.lowestFree ++ be 2 (cells .fp0) ++ be 2 (cells .fp1) ++ be 2 (cells .fp2) ++
      be 2 (cells .fp3 + queueCells s.io.es.beaconPos.toList)]) ∧
    gives 3 [
      flows (fun _ => true) ++ flows (·.pinned) ++ flows (·.detected) ++ be 1 s.nodeGameActive.toNat ++
      be 2 s.cl.params.pmin ++ be 2 s.cl.params.pmax ++ be 2 s.cl.params.smax ++ be 1 s.cl.params.tp ++
      be 1 s.cl.params.idle] ∧
    (let queue (q : List QFrame) : List Byte := be 2 q.length ++ be 2 (queueCells q)
     let cls (e : PortEgress) (k : Nat) : List Byte :=
       beInt 3 (e.credit.get k) ++ be 2 (e.limit.get k) ++ be 2 (e.inUse.get k).quantum ++ be 3 (e.inUse.get k).cap ++
         be 1 (e.inUse.get k).borrow.toNat
     let port (p : Port) : List Byte :=
       let e := s.io.port p
       queue e.mgmt ++ queue e.queue.c0 ++ queue e.queue.c1 ++ queue e.queue.c2 ++ queue e.queue.c3 ++
         cls e 0 ++ cls e 1 ++ cls e 2 ++ cls e 3 ++
         (match e.tx with
          | .free => be 1 0
          | .busy f => be 1 1 ++ be 1 (kindCode f.kind)
          | .givenUp k => be 1 1 ++ be 1 (kindCode k))
     gives 4 [port .fp0, port .fp1, port .fp2, port .fp3,
      be 1 s.io.es.beaconPos.isSome.toNat ++
      (match s.io.es.inEffect s.tb with
       | .window i => be 1 1 ++ be 2 i
       | .gap => be 1 0) ++
      be 1 s.tb.quietNow.toNat ++ optBytes (fun m => be 1 (windowMethodCode m)) s.io.es.pending ++ be 1 s.io.es.overhead ++
      be 1 s.io.es.guardTime]) ∧
    gives 5 [
      stations (fun e => stCode e.st = 1) ++ stations (fun e => stCode e.st = 2) ++ stations (fun e => stCode e.st = 3) ++
      stations (fun e => stCode e.st = 4) ++ be 4 s.su.counters.stationFull ++ be 1 s.su.scanPos ++
      beInt 1 s.su.params.hyst ++ beInt 1 s.su.params.thresh ++ beInt 1 s.su.params.gameHyst ++
      beInt 1 s.su.params.gameThr ++ be 1 s.su.params.dwell ++ be 1 s.su.params.holdOff] ∧
    gives 6 [
      contexts 1 ++ contexts 2 ++ contexts 3 ++ contexts 4 ++ contexts 5 ++ be 2 s.hu.holdCells ++
      be 1 s.hu.params.claimDelay ++ be 1 s.hu.params.linger ++ be 3 s.hu.params.tctx] ∧
    gives 7 [
      be 6 s.se.ts.toNat ++ optBytes (be 2) s.se.minute ++ optBytes (fun m => be 1 (schedMethodCode m)) s.se.pending ++
      stations (fun e => e.eff = some .allow) ++ stations (fun e => e.eff = some .metered) ++
      stations (fun e => e.eff = some .limit) ++ stations (fun e => e.eff = some .block) ++ be 3 s.se.threshold] ∧
    (let slot (x : Slot) : List Byte :=
       be 1 (slotStateCode (x.held.map (·.st))) ++
       (match x.held with
        | some r =>
          be 2 r.img.id ++ be 4 r.img.version ++ be 2 r.img.count ++ be 4 r.img.crc ++ be 2 r.received ++ be 2 r.failures
        | none => []) ++
       be 1 x.load ++
       (match x.held.map (·.st) with
        | some (.armed c) => be 6 c.toNat
        | some (.switched c) => be 6 c.toNat
        | _ => [])
     let stage := s.ie.slot (!s.ie.active)
     let flash : FlashOp → List Byte
       | .erase n l => be 1 1 ++ be 1 n.toNat ++ be 1 l
       | .write n l i => be 1 2 ++ be 1 n.toNat ++ be 1 l ++ be 2 i
       | .verify n l => be 1 3 ++ be 1 n.toNat ++ be 1 l
       | .blockRead n l i _ _ => be 1 4 ++ be 1 n.toNat ++ be 1 l ++ be 2 i
     let waits : SlotOp → List Byte
       | .erase => be 1 1
       | .verify => be 1 3
     let target (x : Target) : List Byte := be 1 x.node ++ be 1 (targetCode x.st) ++ be 2 x.missing
     let dist (d : Dist) : List Byte :=
       be 1 (phaseCode d.phase) ++ be 1 d.round ++ be 2 d.deferrals ++ optBytes (fun t : Time => be 6 t.toNat) d.cutover ++
       be 1 d.forced.toNat ++ listBytes target d.targets ++
       optBytes (fun (q : Query) => be 2 q.num ++ be 1 (imageType (q.kind.body d))) d.query
     let p := s.ie.params
     gives 8 [
      be 1 s.ie.active.toNat ++ optBytes (fun (b : Bool) => be 1 b.toNat) s.ie.switchOut ++ slot s.ie.slot0 ++
      slot s.ie.slot1 ++
      mapBytes (mapReportOf stage (match stage.held with
        | some r => r.img.id
        | none => 0) 0) ++
      listBytes (fun (w : WriteEntry) => be 1 w.load ++ be 2 w.index) s.ie.writeQ ++ optBytes flash s.ie.inFlight ++
      optBytes waits s.ie.pendingOp ++ optBytes dist s.ie.dist ++
      be 3 p.announceTimeout ++ be 1 p.announceRetries ++ be 3 p.mapTimeout ++ be 1 p.mapRetries ++ be 4 p.verifyTimeout ++
      be 1 p.verifyRetries ++ be 3 p.proposeTimeout ++ be 1 p.proposeRetries ++ be 1 p.roundsMax ++ be 1 p.interval ++
      be 1 p.maxDeferrals ++ be 1 p.forceAfter.toNat ++ be 1 p.lead]) ∧
    (let adm (p : Port) : List Byte := be 1 (admissionCode (s.io.cu.admission.get p))
     let detail (e : Event) : List Byte := be 1 (eventCode e).2 ++ be 1 (eventDetail e).length ++ eventDetail e
     let rec_ (c : Category) : List Byte :=
       let r := s.io.cu.events.get c
       be 1 r.pending.toNat ++ be 1 r.enable.toNat ++ optBytes detail r.first ++ be 2 r.count
     gives 9 [
      adm .fp0 ++ adm .fp1 ++ adm .fp2 ++ adm .fp3 ++
      optBytes (fun (r : Registration) => be 1 r.node ++ be 1 (portNum r.port) ++ be 6 r.addr.toNat) s.io.cu.reg ++
      rec_ .sync ++ rec_ .station ++ rec_ .handoff ++ rec_ .schedule ++ rec_ .flow ++ rec_ .backhaul ++ rec_ .buffer ++
      rec_ .image ++ rec_ .control ++ be 2 s.io.cu.queue.length])) ∧
  (∀ h s, h.readable →
    let gives (block : Nat) (l : List Nat) : Prop :=
      exec (.readCounters h block) s = .next (answered h 2 .ok (l.map (be 4)) s)
    let ports (c : PerPort Nat) : List Nat := [c.fp0, c.fp1, c.fp2, c.fp3]
    let egress (f : EsCounters → Nat) : List Nat :=
      [f (s.io.port .fp0).counters, f (s.io.port .fp1).counters, f (s.io.port .fp2).counters, f (s.io.port .fp3).counters]
    (let c := s.tb.counters
     gives 1 [c.beaconsSent, c.beaconsReplaced, c.beaconsAccepted, c.beaconsIgnored, c.rootConflict, c.rateUpdates,
       c.rateSkipped]) ∧
    (let c := s.io.fp.counters
     gives 2 (ports c.framesIn ++ ports c.rxError ++ ports c.lengthError ++ ports c.poolFull ++ ports c.malformedHeader ++
       ports c.unknownKind ++ ports c.wrongPortKind ++ [c.notForNode, c.noRoute])) ∧
    (let c := s.cl.counters
     gives 3 [c.flowsCreated, c.flowsAged, c.flowsEvicted, c.flowsRemoved, c.flowsCleared, c.flowFull, c.rulesOnly,
       c.gameStarts, c.gameEnds, c.hintFlows, c.hintsMerged, c.hintsRefused]) ∧
    gives 4 (egress (·.framesOut) ++ egress (·.txFail) ++ egress (·.queueFull) ++ egress (·.mgmtFull) ++
      egress (·.oversize) ++ egress (·.borrowed)) ∧
    (let c := s.su.counters
     gives 5 [c.associations, c.implicitAssociations, c.disassociations, c.eventsIgnored, c.heardDropped, c.stationFull,
       c.stationsEvicted, c.detachedPurged, c.stationsCleared, c.hearingsSent, c.hearingsReceived, c.hearingsIgnored,
       c.steersSent]) ∧
    (let c := s.hu.counters
     gives 6 [c.claimsSent, c.claimsReceived, c.claimsIgnored, c.resumes, c.departures, c.conversions,
       c.arrivalsCompleted, c.contextsLost, c.contextFull, c.earlyReleases, c.releasesSent, c.releasesReceived,
       c.lateRelease, c.secondRelease, c.fwdSent, c.lateFwd, c.holdDrop]) ∧
    (let c := s.se.counters
     gives 7 (ports c.scheduleDrop ++ [c.stateChanges, c.minuteEvents, c.jumps, c.minutesCharged, c.refills,
       c.fallbacks])) ∧
    (let c := s.ie.counters
     gives 8 [c.badBlock, c.blocksWritten, c.writeFailures, c.writeQueueFull, c.blocksIgnored, c.staleCompletions,
       c.blocksSent, c.queriesSent, c.queryTimeouts, c.lateReplies, c.deferrals]) ∧
    (let c := s.io.cu.counters
     gives 9 [c.requestsExecuted, c.requestsDenied, c.controlOverflow, c.controlMalformed, c.responsesLost,
       c.noticesSent, c.noticesLost])) ∧
  (∀ h s, h.admitted → exec (.clearCounters h) s = .next (answered h 3 .ok []
    { s with
      io := { s.io with
        fp := { s.io.fp with lowestFree := 2048, counters := {} }
        es := { s.io.es with ports := s.io.es.ports.map fun e => { e with counters := {} } }
        cu := { s.io.cu with counters := {} } }
      tb := { s.tb with counters := {} }
      cl := { s.cl with counters := {} }
      su := { s.su with counters := {} }
      hu := { s.hu with counters := {} }
      se := { s.se with counters := {} }
      ie := { s.ie with counters := {} } })) ∧
  (∀ h a s, h.readable →
    (s.entry a = none → exec (.readScheduleState h a) s = .next (answered h 32 .notFound [] s)) ∧
    (∀ e, s.entry a = some e →
      exec (.readScheduleState h a) s = .next (answered h 32 .ok
        [be 1 (stCode e.st) ++ be 1 e.profile ++ be 1 (effCode (s.se.base e.profile s.se.minute)) ++
          (match e.eff with
           | some v => be 1 (effCode v)
           | none => []) ++
          overridesBytes (s.se.overridesOf e.profile) ++ stTailBytes e.st] s)))

/-! ## Schedule states -/

/-- What the schedule computes (R24, R127, R128, R136 to R138, R147): the minute of the week of a time under the calendar
record; the profile of an address and the values of profile 0; a profile's base state from its windows and default; a
station's effective state from that, the overrides and the allowance; the class and the suppressed flag each effective state
gives a flow; and whether a mesh time lies in a maintenance window. The statements that name `base`, `effective`, `judge`,
`effUnder`, `profile`, `member` and `minuteOf` mean these. -/
def Obligations.ScheduleStatesAreComputed : Prop :=
  (∀ (c : Calendar) (t : Time),
    ((t - c.anchor).toInt < 0 → c.minuteOf t = c.weekSec % 604800 / 60) ∧
    (0 ≤ (t - c.anchor).toInt → c.minuteOf t = (c.weekSec + (t - c.anchor).toNat / 1000000) % 604800 / 60)) ∧
  (∀ (t : SchedTables) (a : Addr),
    let holds (m : Member) : Prop := m.inUse = true ∧ m.addr = a
    ((∀ m ∈ t.members, ¬ holds m) → t.member a = 0) ∧
    (∀ (i : Nat) (m : Member), t.members[i]? = some m → holds m → (∀ j v, j < i → t.members[j]? = some v → ¬ holds v) →
      t.member a = m.profile)) ∧
  (∀ t : SchedTables,
    (t.profile 0).default = .allow ∧ (t.profile 0).daily = [1440, 1440, 1440, 1440, 1440, 1440, 1440] ∧
    (t.profile 0).fallback = 1440 ∧ ∀ id p, 1 ≤ id → t.profiles[id - 1]? = some p → t.profile id = p) ∧
  (∀ (e : ScheduleEngine) (id : Nat),
    let covers (m : Nat) (b : EffState) (w : SchedWindow) : Prop :=
      w.inUse = true ∧ w.profile = id ∧ w.kind = .base b ∧ w.start ≤ m ∧ m < w.stop
    (id = 0 → ∀ minute, e.base id minute = .allow) ∧
    (1 ≤ id → e.base id none = (e.active.profile id).default) ∧
    (∀ m, 1 ≤ id → (∀ w ∈ e.active.windows, ∀ b, ¬ covers m b w) →
      e.base id (some m) = (e.active.profile id).default) ∧
    (∀ (m : Nat) (b : EffState) (i : Nat) (w : SchedWindow), 1 ≤ id → e.active.windows[i]? = some w → covers m b w →
      (∀ j v, j < i → e.active.windows[j]? = some v → ∀ b', ¬ covers m b' v) → e.base id (some m) = b)) ∧
  (∀ (e : ScheduleEngine) (id : Nat) (o : Overrides), (id = 0 → o = {}) →
    (1 ≤ id → e.overrides[id - 1]? = some o) →
    let v : EffState :=
      if o.pause ≠ none then .block else if o.grant ≠ none then .allow else e.base id e.minute
    (∀ r a, v ≠ .metered → e.effective id (.serving r a) = some v) ∧
    (∀ q ch, v ≠ .metered → e.effective id (.arriving q ch) = some v) ∧
    (v = .metered → e.minute = none →
      (∀ r a, e.effective id (.serving r a) = some .allow) ∧ ∀ q ch, e.effective id (.arriving q ch) = some .allow) ∧
    (v = .metered → e.minute ≠ none →
      (∀ q ch, e.effective id (.arriving q ch) = some .metered) ∧
      (∀ r a, a.known = true → a.remaining = 0 →
        e.effective id (.serving r a) = some (e.active.profile id).exhausted) ∧
      (∀ r a, (a.known = false ∨ 0 < a.remaining) → e.effective id (.serving r a) = some .metered)) ∧
    (∀ a, e.effective id (.detached a) = none) ∧ ∀ n p, e.effective id (.away n p) = none) ∧
  (∀ (p : Profile) (k : Nat) (essential : Bool),
    judge .allow p k essential = (k, false) ∧ judge .metered p k essential = (k, false) ∧
    (p.matrix.get k = .pass → judge .limit p k essential = (k, false)) ∧
    (∀ t, p.matrix.get k = .demote t → judge .limit p k essential = (t, false)) ∧
    (p.matrix.get k = .drop → judge .limit p k false = (3, true) ∧ judge .limit p k true = (3, false)) ∧
    judge .block p k false = (3, true) ∧ judge .block p k true = (if k = 0 then 1 else k, false)) ∧
  (∀ (e : ScheduleEngine) (k : Nat) (essential : Bool),
    effUnder e none k essential = (k, false) ∧
    ∀ x : Station,
      (x.eff = none → effUnder e (some x) k essential = (k, false)) ∧
      ∀ v, x.eff = some v → effUnder e (some x) k essential = judge v (e.active.profile x.profile) k essential) ∧
  (∀ (s : State) (t : Time),
    let kept (w : SchedWindow) : Prop := w ∈ s.se.active.windows ∧ w.inUse = true ∧ w.kind = .maintenance
    let minute := s.tb.cal.minuteOf t
    (((∀ w, ¬ kept w) ∨ s.tb.cal.valid = false) → s.maintenance t = .noWindows) ∧
    (∀ w, s.tb.cal.valid = true → kept w → w.start ≤ minute → minute < w.stop → s.maintenance t = .inside) ∧
    (s.tb.cal.valid = true → (∃ w, kept w) → (∀ w, kept w → ¬ (w.start ≤ minute ∧ minute < w.stop)) →
      s.maintenance t = .outside))

/-! ## Overrides and bonuses -/

/-- SET, CLEAR and TOGGLE OVERRIDE (R144): the refusals, NOT_FOUND before MALFORMED (log 53, the model's choice), the one
kind a profile holds with its scope and recorded base state, the event, and the effective states of the profile's
stations, with STATE_CHANGED and the classes of their flows (R137, R138). OVERRIDE_CHANGED is raised where the overrides
changed, for a clear with the scope removed (log 28, DEDUCED), and before STATE_CHANGED (log 54, the model's choice).
GRANT BONUS (R146): every known allowance of the profile's SERVING and DETACHED entries grows by the clamped minutes, up
to 86,400 seconds, and the states of the SERVING ones are computed; the answer carries their number, those that stood at
86,400 already among them, and the states are computed in slot order (log 41, the model's choice). -/
def Obligations.OverridesAndBonuses : Prop :=
  ((∀ h profile kind scope s, h.admitted → (profile = 0 ∨ 31 < profile) →
    exec (.setOverride h profile kind scope) s = .next (answered h 33 .notFound [] s) ∧
    exec (.clearOverride h profile kind) s = .next (answered h 34 .notFound [] s) ∧
    exec (.toggleOverride h profile kind scope) s = .next (answered h 35 .notFound [] s)) ∧
  (∀ h profile kind scope s, h.admitted → 1 ≤ profile → profile ≤ 31 →
    ((kind = 0 ∨ 2 < kind ∨ scope = 0 ∨ 2 < scope) →
      exec (.setOverride h profile kind scope) s = .next (answered h 33 .malformed [] s) ∧
      exec (.toggleOverride h profile kind scope) s = .next (answered h 35 .malformed [] s)) ∧
    ((kind = 0 ∨ 2 < kind) → exec (.clearOverride h profile kind) s = .next (answered h 34 .malformed [] s)) ∧
    exec (.toggleOverride h profile 2 scope) s = .next (answered h 35 .malformed [] s)) ∧
  (∀ h profile s (o : Overrides) (sc : OverrideScope), h.admitted → 1 ≤ profile → profile ≤ 31 →
    s.se.overrides[profile - 1]? = some o →
    let now := s.se.base profile s.se.minute
    let leaves (code : Nat) (i : Instr) (new : Overrides) : Prop :=
      ∃ t, exec i s = .next (answered h code .ok [] t) ∧
        t.se.overrides = s.se.overrides.set (profile - 1) new ∧ t.se.active = s.se.active ∧ t.se.staged = s.se.staged ∧
        t.se.minute = s.se.minute ∧ t.se.pending = s.se.pending ∧
        (new ≠ o → (t.io.cu.events.get .schedule).pending = true) ∧ (new = o → t = s) ∧
        t.tb = s.tb ∧ t.hu = s.hu ∧ t.ie = s.ie ∧
        ∀ (j : Nat) (e : Station), s.su.table[j]? = some (some e) →
          ∃ v, t.su.table[j]? = some (some { e with eff := v }) ∧
            (StationsDistinct s → new ≠ o → e.profile = profile → e.st.served = true →
              v = t.se.effective profile e.st)
    let tells (code : Nat) (i : Instr) (new : Overrides) (k : OverrideKind) (told : OverrideScope) : Prop :=
      StationsDistinct s → new ≠ o → exec i s = .next (answered h code .ok []
        (statesComputed (fun e => e.profile = profile)
          { s with
            io := raise (.overrideChanged profile k told) s.io
            se := { s.se with overrides := s.se.overrides.set (profile - 1) new } }))
    let paused : Overrides := { pause := some { scope := sc, base := now }, grant := none }
    tells 33 (.setOverride h profile 1 (scopeCode sc)) paused .pause sc ∧
    tells 33 (.setOverride h profile 2 (scopeCode sc)) { pause := none, grant := some { scope := sc, base := now } } .grant sc ∧
    (∀ v, o.pause = some v → tells 34 (.clearOverride h profile 1) { o with pause := none } .pause v.scope) ∧
    (∀ v, o.grant = some v → tells 34 (.clearOverride h profile 2) { o with grant := none } .grant v.scope) ∧
    (o.pause = none → tells 35 (.toggleOverride h profile 1 (scopeCode sc)) paused .pause sc) ∧
    (∀ v, o.pause = some v →
      tells 35 (.toggleOverride h profile 1 (scopeCode sc)) { o with pause := none } .pause v.scope) ∧
    leaves 33 (.setOverride h profile 1 (scopeCode sc)) { pause := some { scope := sc, base := now }, grant := none } ∧
    leaves 33 (.setOverride h profile 2 (scopeCode sc)) { pause := none, grant := some { scope := sc, base := now } } ∧
    leaves 34 (.clearOverride h profile 1) { o with pause := none } ∧
    leaves 34 (.clearOverride h profile 2) { o with grant := none } ∧
    leaves 35 (.toggleOverride h profile 1 (scopeCode sc))
      (if o.pause.isSome then { o with pause := none } else { pause := some { scope := sc, base := now }, grant := none }))) ∧
  (∀ h profile minutes s, h.admitted →
    ((profile = 0 ∨ 31 < profile) →
      exec (.grantBonus h profile minutes) s = .next (answered h 36 .notFound [] s)) ∧
    (1 ≤ profile → profile ≤ 31 →
      let n := max 1 (min 600 minutes) * 60
      let known (st : StState) : Bool := match st with
        | .serving _ a => a.known
        | .detached a => a.known
        | _ => false
      let gain (st : StState) : StState := match st with
        | .serving r a => .serving r { a with remaining := min (a.remaining + n) 86400 }
        | .detached a => .detached { a with remaining := min (a.remaining + n) 86400 }
        | st => st
      let count := (s.su.table.filterMap id).countP fun e => e.profile = profile && known e.st
      let reached (e : Station) : Bool := e.profile = profile && known e.st
      let given : State := { s with su := { s.su with
        table := s.su.table.map fun o => o.map fun e => if reached e then { e with st := gain e.st } else e } }
      (StationsDistinct s →
        exec (.grantBonus h profile minutes) s = .next (answered h 36 .ok [be 2 count] (statesComputed reached given))) ∧
      ∃ t, exec (.grantBonus h profile minutes) s = .next (answered h 36 .ok [be 2 count] t) ∧
        t.se.active = s.se.active ∧ t.se.overrides = s.se.overrides ∧ t.tb = s.tb ∧ t.hu = s.hu ∧ t.ie = s.ie ∧
        ∀ (i : Nat) (e : Station), s.su.table[i]? = some (some e) →
          ∃ v, t.su.table[i]? = some (some
            { e with st := if e.profile = profile ∧ known e.st = true then gain e.st else e.st, eff := v })))

/-! ## Requests of the Image Engine -/

/-- IMAGE OPEN (R156), IMAGE CLOSE, IMAGE ABORT and IMAGE CANCEL (R158). IMAGE CANCEL raises no DISARMED, which R171 gives to
the protocol alone (log 30, DEDUCED); the block count of an IMAGE OPEN is clamped to 1..8,192 (log 17, DEDUCED). -/
def Obligations.ImageRequestsMoveTheStagingSlot : Prop :=
  ∀ (h : ReqHead) (img : ImageInfo) (replace : Bool) (s : State), h.admitted →
    let n := !s.ie.active
    let x := s.ie.slot n
    let running : Prop := ∃ d, s.ie.dist = some d ∧ d.phase ≠ .done ∧ d.phase ≠ .aborted
    let armed : Prop := ∃ r c, x.held = some r ∧ r.st = .armed c
    let freed := freeCells ((s.ie.writeQ.filter fun w => !w.begun).map (·.cells)).sum s.io
    ((running ∨ armed ∨ (replace = false ∧ ∃ r, x.held = some r ∧ r.st ≠ .failed)) →
      exec (.imageOpen h img replace) s = .next (answered h 40 .wrongState [] s)) ∧
    (¬ running → ¬ armed → (replace = true ∨ ∀ r, x.held = some r → r.st = .failed) →
      let i : ImageInfo := { img with count := max 1 (min 8192 img.count) }
      let op : Option SlotOp := match s.ie.inFlight with
        | some (.erase m _) => if m = n then none else some .erase
        | _ => some .erase
      let e : ImageEngine := { s.ie with writeQ := s.ie.writeQ.filter (·.begun), pendingOp := op }
      let r : SlotRec := { img := i, map := List.replicate i.count false, received := 0, failures := 0, st := .erasing }
      exec (.imageOpen h img replace) s = .next (answered h 40 .ok []
        { s with io := freed, ie := e.setSlot n { load := (x.load + 1) % 256, held := some r } })) ∧
    (∀ r, x.held = some r → r.st = .complete →
      let e : ImageEngine := { s.ie with pendingOp := some .verify }
      exec (.imageClose h) s = .next (answered h 42 .ok []
        { s with ie := e.setSlot n { x with held := some { r with st := .verifying .controller } } })) ∧
    ((∀ r, x.held = some r → r.st ≠ .complete) →
      exec (.imageClose h) s = .next (answered h 42 .wrongState [] s)) ∧
    ((running ∨ armed) → exec (.imageAbort h) s = .next (answered h 43 .wrongState [] s)) ∧
    (¬ running → ¬ armed →
      let e : ImageEngine := { s.ie with writeQ := s.ie.writeQ.filter (·.begun), pendingOp := none }
      exec (.imageAbort h) s = .next (answered h 43 .ok []
        { s with io := freed, ie := e.setSlot n { load := (x.load + 1) % 256, held := none } })) ∧
    (∀ r c, x.held = some r → r.st = .armed c →
      exec (.imageCancel h) s = .next (answered h 44 .ok []
        { s with ie := s.ie.setSlot n { x with held := some { r with st := .verified } } })) ∧
    (¬ armed → exec (.imageCancel h) s = .next (answered h 44 .wrongState [] s))

/-- A block offered by the controller (R157) and one offered by a BLOCK message (R160): the checks in their order, and the
place in the write queue (R154), with the block that finds no cells. A BLOCK message's CRC is tested before the slot, and one
for an index at or above the block count is counted BLOCKS_IGNORED (log 17, DEDUCED); an IMAGE BLOCK the pool refuses is
counted at the port its request came by, with kind IMAGE (log 27, DEDUCED). -/
def Obligations.BlocksEnterTheWriteQueue : Prop :=
  ∀ (h : ReqHead) (id i crc : Nat) (data : List Byte) (s : State), h.admitted →
    let go := exec (.imageBlock h i crc data) s
    let taken := tookFrame .fp3 5 s.io
    let x := s.ie.slot (!s.ie.active)
    let receiving (r : SlotRec) : Prop := x.held = some r ∧ r.st = .receiving
    let known (r : SlotRec) : Prop := r.map[i]? = some true ∨ ∃ w ∈ s.ie.writeQ, w.index = i
    let queued (cells : Nat) : ImageEngine :=
      { s.ie with writeQ := s.ie.writeQ ++ [{ load := x.load, index := i, data, cells, begun := false }] }
    let bad : ImageEngine := { s.ie with counters := { s.ie.counters with badBlock := satInc s.ie.counters.badBlock } }
    let full : ImageEngine :=
      { s.ie with counters := { s.ie.counters with writeQueueFull := satInc s.ie.counters.writeQueueFull } }
    let ignored : ImageEngine :=
      { s.ie with counters := { s.ie.counters with blocksIgnored := satInc s.ie.counters.blocksIgnored } }
    ((¬ ∃ r, receiving r) → go = .next (answered h 41 .wrongState [] s)) ∧
    (∀ r, receiving r →
      (r.img.count ≤ i → go = .next (answered h 41 .range [] s)) ∧
      (i < r.img.count → crc16 data ≠ crc → go = .next (answered h 41 .malformed [] { s with ie := bad })) ∧
      (i < r.img.count → crc16 data = crc → known r → go = .next (answered h 41 .ok [] s)) ∧
      (i < r.img.count → crc16 data = crc → ¬ known r → 8 ≤ s.ie.writeQ.length →
        go = .next (answered h 41 .wrongState [] { s with ie := full })) ∧
      (i < r.img.count → crc16 data = crc → ¬ known r → s.ie.writeQ.length < 8 → 4 ≤ s.io.fp.freeCells →
        go = .next (answered h 41 .ok [] { s with io := takeCells 4 s.io, ie := queued 4 })) ∧
      (i < r.img.count → crc16 data = crc → ¬ known r → s.ie.writeQ.length < 8 → s.io.fp.freeCells < 4 →
        go = .next (answered h 41 .wrongState [] (s.onIo fun io => raise (.poolExhausted h.port .image 4)
          (countFp (fun c => { c with poolFull := c.poolFull.inc h.port }) io))))) ∧
    (data.length = 1024 → s.io.fp.freeCells < 5 →
      exec (.blockMessage id i crc data) s = .next (s.onIo fun io => raise (.poolExhausted .fp3 .image 5)
        (countFp (fun c => { c with poolFull := c.poolFull.inc .fp3 }) io))) ∧
    (data.length = 1024 → 5 ≤ s.io.fp.freeCells →
      let put := exec (.blockMessage id i crc data) s
      (crc16 data ≠ crc → put = .next { s with io := taken, ie := bad }) ∧
      (crc16 data = crc → (¬ ∃ r, receiving r) → put = .next { s with io := taken, ie := ignored }) ∧
      (∀ r, crc16 data = crc → receiving r →
        ((r.img.id ≠ id ∨ r.img.count ≤ i ∨ known r) → put = .next { s with io := taken, ie := ignored }) ∧
        (r.img.id = id → i < r.img.count → ¬ known r → 8 ≤ s.ie.writeQ.length →
          put = .next { s with io := taken, ie := full }) ∧
        (r.img.id = id → i < r.img.count → ¬ known r → s.ie.writeQ.length < 8 →
          put = .next { s with
            io := countFp (fun c => { c with framesIn := c.framesIn.inc .fp3 }) (takeCells 5 s.io), ie := queued 5 })))

/-- DISTRIBUTE START (R164, R165) and DISTRIBUTE ABORT (R170), which sends one CANCEL to each ACCEPTED target, each under
the next query number, used up also where the pool refuses the query its cells (log 56, the model's choice), in list order
and before DISTRIBUTION_ENDED (log 52, the model's choice). A DISTRIBUTE START that meets several refusals is answered
MALFORMED, then WRONG_STATE, then NOT_FOUND (log 53, the model's choice). QUERIES_SENT is counted where the management
queue takes the query (log 19, DEDUCED), and DISTRIBUTE ABORT raises no DISARMED (log 30, DEDUCED). -/
def Obligations.DistributionsStartAndAbort : Prop :=
  ∀ (h : ReqHead) (id : Nat) (replace : Bool) (targets : List Nat) (s : State), h.admitted →
    let go := exec (.distributeStart h id replace targets) s
    let x := s.ie.slot (!s.ie.active)
    let running : Prop := ∃ d, s.ie.dist = some d ∧ d.phase ≠ .done ∧ d.phase ≠ .aborted
    let bad : Prop := 7 < targets.length ∨ (∃ n ∈ targets, n = 0 ∨ 8 < n ∨ n = s.io.fp.nodeId) ∨ ¬ targets.Nodup
    (bad → go = .next (answered h 46 .malformed [] s)) ∧
    (¬ bad → (running ∨ ∀ r, x.held = some r → r.st ≠ .verified) → go = .next (answered h 46 .wrongState [] s)) ∧
    (∀ r, ¬ bad → ¬ running → x.held = some r → r.st = .verified → r.img.id ≠ id →
      go = .next (answered h 46 .notFound [] s)) ∧
    (∀ r n rest, ¬ bad → ¬ running → x.held = some r → r.st = .verified → r.img.id = id → targets = n :: rest →
      let q := (s.ie.queryNum + 1) % 65536
      let sent := sendImage n
        { query := q, id, body := .announce r.img.version r.img.count r.img.crc replace } s.io
      go = .next (answered h 46 .ok []
        { s with
          io := sent.2
          ie := { s.ie with
            queryNum := q
            counters := if sent.1 then { s.ie.counters with queriesSent := satInc s.ie.counters.queriesSent }
              else s.ie.counters
            dist := some {
              phase := .announce, img := r.img, replace, targets := targets.map fun n => { node := n }
              resend := List.replicate r.img.count false, cursor := 0
              query := some {
                num := q, kind := .announce
                deadline := s.tb.lt + BitVec.ofNat 48 s.ie.params.announceTimeout } } } })) ∧
    (∀ r, ¬ bad → ¬ running → x.held = some r → r.st = .verified → r.img.id = id → targets = [] →
      let new : Dist :=
        { phase := .announce, img := r.img, replace, targets := [], resend := List.replicate r.img.count false }
      go = .next (answered h 46 .ok [] (beginPass { s with ie := { s.ie with dist := some new } })) ∧
        ∃ t d, go = .next (answered h 46 .ok [] t) ∧ t.ie.dist = some d ∧ d.img = r.img ∧ d.targets = []) ∧
    (¬ running → exec (.distributeAbort h) s = .next (answered h 47 .wrongState [] s)) ∧
    (∀ d, s.ie.dist = some d → d.phase ≠ .done → d.phase ≠ .aborted →
      let accepted := (d.targets.filter fun y => y.st = .accepted).map (·.node)
      let cancels := cancelsSent d.img.id accepted s.io s.ie.queryNum s.ie.counters.queriesSent
      exec (.distributeAbort h) s = .next (answered h 47 .ok [] (distAborted .abort d s)) ∧
      ∃ t, exec (.distributeAbort h) s = .next (answered h 47 .ok [] t) ∧
        t.ie.dist = some { d with phase := .aborted, query := none } ∧
        t.ie.queryNum = cancels.2.1 ∧ t.ie.counters = { s.ie.counters with queriesSent := cancels.2.2 } ∧
        t.io = raise (.distributionEnded .abort) cancels.1 ∧
        (t.io.cu.events.get .image).pending = true ∧
        t.ie.slot s.ie.active = s.ie.slot s.ie.active ∧ t.ie.active = s.ie.active ∧
        t.ie.slot (!s.ie.active) =
          (match x.held with
           | some r => { x with held := some (match r.st with
               | .armed _ => if r.img.id = d.img.id then { r with st := .verified } else r
               | _ => r) }
           | none => x) ∧
        t.ie.writeQ = s.ie.writeQ ∧ t.ie.pendingOp = s.ie.pendingOp ∧ t.ie.params = s.ie.params ∧
        t.ie.inFlight = (match s.ie.inFlight with
          | some (.blockRead n l i c _) => some (.blockRead n l i c false)
          | o => o) ∧
        t.tb = s.tb ∧ t.cl = s.cl ∧ t.su = s.su ∧ t.hu = s.hu ∧ t.se = s.se)


/-! ## Pin reset and cycle starts -/

/-- Pin reset (R181 and each chapter's values after reset): the straps are sampled and everything else takes its reset value,
but for the model's queue of waiting commands and its index of free values (log 1, log 9). -/
def Obligations.PinResetLeavesTheResetValues : Prop :=
  ∀ (st : Straps) (s : State),
    exec (.pinReset st) s = .next
      { State.pinReset st with
        pending := s.pending
        io := { fp := { nodeId := st.nodeId + 1, gateway := st.gateway }, freeCount := s.io.freeCount } } ∧
    let r := State.pinReset st
    r.io.fp.nodeId = st.nodeId + 1 ∧ r.io.fp.gateway = st.gateway ∧ r.io.fp.gatewayId = 1 ∧
    r.io.fp.freeCells = 2048 ∧ r.io.fp.lowestFree = 2048 ∧ r.io.fp.counters = {} ∧
    r.tb.lt = 0 ∧ r.tb.offset = 0 ∧ r.tb.n = 163840 ∧ r.tb.d = 4096 ∧ r.tb.nBase = 163840 ∧ r.tb.fracNum = 0 ∧
    r.tb.sync = .free ∧ r.tb.followed = none ∧ r.tb.rateAnchor = none ∧ r.tb.preset = none ∧ r.tb.quietList = [] ∧
    r.tb.cal.valid = false ∧ r.tb.counters = {} ∧
    r.tb.params = { priority := 7, rootWatch := 32, beaconWatch := 4, lockCount := 4, lockWindow := 8, exponent := 13 } ∧
    r.cl.rules = List.replicate 48
      { inUse := false, proto := .any, rLo := 0, rHi := 65535, lLo := 0, lHi := 65535, sLo := 0, sHi := 1518
        profile := none, cls := 2, essential := false, pin := false } ∧
    r.cl.flows = List.replicate 512 none ∧
    r.cl.params = { pmin := 10, pmax := 200, smax := 300, tp := 3, idle := 8 } ∧ r.cl.inUse = r.cl.params ∧
    r.cl.counters = {} ∧
    (∀ p, (r.io.port p).mgmt = [] ∧ (r.io.port p).queue = ⟨[], [], [], []⟩ ∧ (r.io.port p).credit = ⟨0, 0, 0, 0⟩ ∧
      (r.io.port p).limit = ⟨384, 384, 384, 384⟩ ∧
      (r.io.port p).written = ⟨⟨4096, 8192, false⟩, ⟨4096, 8192, false⟩, ⟨4096, 8192, true⟩, ⟨4096, 8192, true⟩⟩ ∧
      (r.io.port p).inUse = (r.io.port p).written ∧ (r.io.port p).tx = .free ∧ (r.io.port p).counters = {}) ∧
    r.io.es.beaconPos = none ∧ r.io.es.pending = none ∧ r.io.es.overhead = 40 ∧ r.io.es.guardTime = 16 ∧
    r.io.es.staged = r.io.es.active ∧ r.io.es.active.length = 24 ∧
    (∃ w v, r.io.es.active.filter (·.inUse) = [w, v] ∧
      w.start = 0 ∧ w.length = 512 ∧ w.kind = .beacon ∧ v.start = 512 ∧ v.length = 7680 ∧ v.kind = .opened ∧
      v.mask = ⟨true, true, true, true⟩) ∧
    (∀ p ∈ r.io.es.peers, p.inUse = false) ∧ r.io.es.peers.length = 8 ∧
    r.io.cu.admission = ⟨.manage, .none, .none, .manage⟩ ∧ r.io.cu.queue = [] ∧ r.io.cu.reg = none ∧
    r.io.cu.counters = {} ∧ (∀ c, r.io.cu.events.get c = { pending := false, enable := false, first := none, count := 0 }) ∧
    r.su.table = List.replicate 192 none ∧ r.su.scanPos = 0 ∧ r.su.counters = {} ∧
    r.su.params = { hyst := 8, thresh := -70, gameHyst := 12, gameThr := -78, dwell := 3, holdOff := 16 } ∧
    r.hu.slots = List.replicate 16 { gen := 0, ctx := none } ∧ r.hu.params = { claimDelay := 3, linger := 2, tctx := 200000 } ∧
    r.hu.counters = {} ∧
    r.se.staged = r.se.active ∧ r.se.pending = none ∧ r.se.minute = none ∧ r.se.threshold = 4096 ∧ r.se.counters = {} ∧
    r.se.overrides = List.replicate 31 { pause := none, grant := none } ∧
    (∀ m ∈ r.se.active.members, m.inUse = false) ∧ r.se.active.members.length = 128 ∧
    (∀ w ∈ r.se.active.windows, w.inUse = false) ∧ r.se.active.windows.length = 256 ∧
    r.se.active.profiles = List.replicate 31
      { default := .allow, daily := [1440, 1440, 1440, 1440, 1440, 1440, 1440], fallback := 0, exhausted := .limit
        matrix := ⟨.demote 2, .demote 2, .pass, .pass⟩ } ∧
    r.ie.active = st.boot ∧ r.ie.slot0 = { load := 0, held := none } ∧ r.ie.slot1 = { load := 0, held := none } ∧
    r.ie.switchOut = none ∧ r.ie.writeQ = [] ∧ r.ie.pendingOp = none ∧ r.ie.inFlight = none ∧ r.ie.dist = none ∧
    r.ie.queryNum = 0 ∧ r.ie.params = {} ∧ r.ie.counters = {}

/-- A cycle start with no preset to apply (R6, R10, R13, R14, R16, R26, R85, R118): the watches and the state changes they
cause, the quiet mark judged and cleared, the window table commit, the root's beacon with the quiet list it leaves, also at
the cycle start at which the node enters ROOT, and the RELEASEs built again, in slot order behind the beacon and before the
reports of a period end (log 40, the model's choice). The cell of an event's notice is kept out of the way by a second free
cell. A root with no free cell leaves the beacon that waits in its position and does not process the quiet list: the new cell
is asked for before the old one is freed (log 16, DEDUCED). An observation without a change of the cycle count changes
nothing (log 6, DEDUCED). With a preset to apply, the cycle start is that of the state PresetTimeBecomesPending gives. -/
def Obligations.CycleStartsMoveTheBlock : Prop :=
  ∀ s : State,
    (s.tb.count = s.tb.lastCount → exec .cycleStart s = .next s) ∧
    (s.tb.count ≠ s.tb.lastCount → (s.tb.sync ≠ .root ∨ s.tb.preset = none) →
      let start := BitVec.ofNat 48 (s.mt.toNat / 2 ^ s.tb.params.exponent * 2 ^ s.tb.params.exponent)
      let next := start + BitVec.ofNat 48 (2 ^ s.tb.params.exponent)
      let listen := min (s.tb.listenWatch + 1) 255
      let beacon := min (s.tb.beaconWatch + 1) 255
      let mayRoot : Prop := s.tb.params.priority ≤ 6
      let due : Prop := s.io.es.pending = some .cycle ∨ (s.io.es.pending = some .round ∧ s.tb.count = 0) ∨
        (s.io.es.pending = some .quiet ∧ s.tb.quietMark = some start)
      let owed (k : Nat) : Option (Context × Nat × Option Allowance) :=
        match (s.hu.slots[k]?).bind (·.ctx) with
        | some c =>
          match c.st with
          | .depart true _ _ n 0 sn => some (c, n, sn)
          | _ => none
        | none => none
      let waiting := (List.range 16).filterMap fun k => (owed k).map fun r => (k, r)
      let taken := waiting.take (16 - (s.io.port .fp3).mgmt.length)
      let enters : Prop := mayRoot ∧
        ((s.tb.sync = .listen ∧ s.tb.params.rootWatch ≤ listen) ∨ (s.tb.sync = .holdover ∧ s.tb.params.rootWatch ≤ beacon))
      ∃ t, exec .cycleStart s = .next t ∧
        t.tb.lastCount = s.tb.count ∧ t.mt = s.mt ∧ t.tb.params = s.tb.params ∧ t.tb.n = s.tb.n ∧ t.tb.cal = s.tb.cal ∧
        t.se = s.se ∧ t.ie = s.ie ∧ t.io.es.staged = s.io.es.staged ∧ t.io.es.peers = s.io.es.peers ∧
        (t.tb.quietNow = true ↔ s.tb.quietMark = some start) ∧
        (s.tb.sync = .free → t.tb.sync = .free) ∧ (s.tb.sync = .root → t.tb.sync = .root) ∧
        (enters → t.tb.sync = .root ∧ t.tb.followed = none) ∧
        (s.tb.sync = .listen → ¬ enters → t.tb.sync = .listen ∧ t.tb.listenWatch = listen) ∧
        (s.tb.sync = .holdover → ¬ enters → t.tb.sync = .holdover ∧ t.tb.beaconWatch = beacon) ∧
        (s.tb.sync = .track ∨ s.tb.sync = .locked →
          t.tb.beaconWatch = beacon ∧
            t.tb.sync = if s.tb.params.beaconWatch ≤ beacon then .holdover else s.tb.sync) ∧
        (t.tb.sync ≠ s.tb.sync → (t.io.cu.events.get .sync).pending = true) ∧
        (due → t.io.es.active = s.io.es.staged ∧ t.io.es.pending = none ∧
          (t.io.cu.events.get .backhaul).pending = true) ∧
        (¬ due → t.io.es.active = s.io.es.active ∧ t.io.es.pending = s.io.es.pending) ∧
        ((s.tb.sync = .root ∧ 1 ≤ s.io.fp.freeCells) ∨ (enters ∧ 2 ≤ s.io.fp.freeCells) → s.tb.params.exponent ≤ 16 →
          t.io.es.beaconPos = some {
            hdr := some { src := s.io.fp.nodeId, dst := 0 }
            content := .beacon {
              root := s.io.fp.nodeId, prio := s.tb.params.priority, exp := s.tb.params.exponent, disc := s.tb.discOwed
              quiet := decide (next ∈ s.tb.quietList), mtb := start
              cal := if s.tb.count = 0 ∧ s.tb.cal.valid = true then
                  some { anchor := s.tb.cal.anchor, weekSec := s.tb.cal.weekSec, gen := s.tb.cal.gen }
                else none }
            cells := 1 } ∧
          t.tb.discOwed = false ∧ (next ∈ s.tb.quietList → t.tb.quietMark = some next ∧ next ∉ t.tb.quietList) ∧
          (next ∉ s.tb.quietList → t.tb.quietMark = none) ∧
          t.tb.quietList = (s.tb.quietList.filter fun x => decide (¬ 0 ≤ (start - x).toInt) && decide (x ≠ next)) ∧
          t.tb.counters.beaconsReplaced =
            (if s.io.es.beaconPos = none then s.tb.counters.beaconsReplaced else satInc s.tb.counters.beaconsReplaced)) ∧
        (s.tb.sync ≠ .root → ¬ enters → t.io.es.beaconPos = s.io.es.beaconPos) ∧
        ((s.tb.sync ≠ .root ∧ ¬ enters) ∨ s.io.fp.freeCells = 0 →
          t.tb.quietMark = none ∧ t.tb.quietList = s.tb.quietList ∧ t.tb.discOwed = s.tb.discOwed ∧
            t.io.es.beaconPos = s.io.es.beaconPos) ∧
        (waiting = [] → t.hu = s.hu) ∧
        (s.io.fp.freeCells = 0 → t.hu = s.hu) ∧
        (s.io.cu.reg = none → (∀ r ∈ waiting, r.2.1.hints.length ≤ 8) →
          waiting.length + 1 ≤ s.io.fp.freeCells →
          (∀ (k : Nat) (x : CtxSlot), s.hu.slots[k]? = some x →
            t.hu.slots[k]? = some (if k ∈ taken.map (·.1) then { x with ctx := none } else x)) ∧
          (s.hu.counters.releasesSent ≤ 4294967295 →
            t.hu.counters.releasesSent = min (s.hu.counters.releasesSent + taken.length) 4294967295) ∧
          ∃ releases reports : List QFrame,
            (t.io.port .fp3).mgmt = (s.io.port .fp3).mgmt ++ releases ++ reports ∧ releases.length = taken.length ∧
            (s.tb.count ≠ 0 → reports = []) ∧
            ∀ (k : Nat) i c n sn f, taken[k]? = some (i, c, n, sn) → releases[k]? = some f →
              ∃ al, (∀ v, sn = some v → al = v) ∧ (sn = none → al.known = false) ∧
                f = releaseFrame s c.station c.peer n al c.hints) ∧
        (s.tb.count ≠ 0 → t.cl = s.cl ∧ t.su = s.su))

/-- The Classifier's period end, at a cycle start of count 0 with no preset to apply (R58 to R60): the parameters as written
are used from here on (log 33); every unpinned flow is scored, its detected flag and class set, aged or removed; and the
flows that start or end being detected are counted and raised, in slot order (log 34). -/
def Obligations.FlowPeriodsEnd : Prop :=
  ∀ s : State, s.tb.count ≠ s.tb.lastCount → s.tb.count = 0 → (s.tb.sync ≠ .root ∨ s.tb.preset = none) →
    s.cl.flows.length = 512 →
    let p := s.cl.params
    let score (f : Flow) : Nat :=
      if p.pmin ≤ f.packets ∧ f.packets ≤ p.pmax ∧ f.bytes ≤ f.packets * p.smax then min (f.q + 1) 7 else f.q - 1
    let judged (f : Flow) : Bool := !f.pinned && decide (f.key.proto = .udp)
    let starts (f : Flow) : Bool := judged f && decide (p.tp ≤ score f) && !f.detected
    let ends (f : Flow) : Bool := judged f && !starts f && decide (score f = 0) && f.detected
    let idle (f : Flow) : Nat := if f.cur then 0 else min (f.idle + 1) 255
    let transit (f : Flow) : Prop := ∃ e, s.entry f.key.station = some e ∧ e.st.isAway = true
    let flow (c : Classifier) (i : Nat) (f : Flow) : Prop := c.flows[i]? = some (some f)
    let number (g : Flow → Bool) : Nat := (s.cl.flows.filterMap id).countP g
    let grew (old new n : Nat) : Prop := old ≤ 4294967295 → new = min (old + n) 4294967295
    ∃ t : State, exec .cycleStart s = .next t ∧
      t.cl.rules = s.cl.rules ∧ t.cl.params = p ∧ t.cl.inUse = p ∧ t.cl.flows.length = 512 ∧
      (∀ i : Nat, s.cl.flows[i]? = some none → t.cl.flows[i]? = some none) ∧
      (∀ i f, flow s.cl i f → f.pinned = true →
        flow t.cl i { f with idle := idle f, prev := f.cur, cur := false, packets := 0, bytes := 0 }) ∧
      (∀ i f, flow s.cl i f → f.pinned = false → p.idle ≤ idle f → t.cl.flows[i]? = some none) ∧
      (∀ i f, flow s.cl i f → f.pinned = false → idle f < p.idle →
        ∃ g, flow t.cl i g ∧ g.key = f.key ∧ g.ruleClass = f.ruleClass ∧ g.essential = f.essential ∧ g.pinned = false ∧
          g.rematch = f.rematch ∧ g.hint = f.hint ∧ g.lastSeen = f.lastSeen ∧
          g.packets = 0 ∧ g.bytes = 0 ∧ g.prev = f.cur ∧ g.cur = false ∧ g.idle = idle f ∧
          g.q = (if f.key.proto = .udp then score f else 0) ∧
          g.detected = (if f.key.proto = .udp then (f.detected || starts f) && !ends f else false) ∧
          (transit f → g.clsClass = f.hint.getD f.ruleClass) ∧
          (¬ transit f → g.clsClass = if g.detected then 0 else f.ruleClass) ∧
          (g.clsClass = f.clsClass → g.effClass = f.effClass ∧ g.suppressed = f.suppressed) ∧
          (g.clsClass ≠ f.clsClass →
            (g.effClass, g.suppressed) = effUnder s.se (s.entry f.key.station) g.clsClass f.essential)) ∧
      grew s.cl.counters.gameStarts t.cl.counters.gameStarts (number starts) ∧
      grew s.cl.counters.gameEnds t.cl.counters.gameEnds (number ends) ∧
      (∀ i f, flow s.cl i f → (starts f || ends f) = true →
        (∀ j g, j < i → flow s.cl j g → (starts g || ends g) = false) →
        (t.io.cu.events.get .flow).pending = true ∧
        ((s.io.cu.events.get .flow).pending = false →
          (t.io.cu.events.get .flow).first =
            some (if starts f then .gameStarted f.key i (score f) else .gameEnded f.key i) ∧
          (t.io.cu.events.get .flow).count = min (number starts + number ends) 65535))

/-- The Station Unit's period end, at a cycle start of count 0 with no preset to apply (R96 to R98): the hearing reports, which
come first (log 34), where no notice and no RELEASE of the same cycle start takes queue or cells; the removal of stale
hearing records; hold-off, dwell and STEER. Whether the question of game activity comes before or after the Classifier's
period end is open (R62, log 10). The steering output holds the STEERs of this period and no others (log 12, the model's
choice). -/
def Obligations.StationPeriodsEnd : Prop :=
  ∀ s : State, s.tb.count ≠ s.tb.lastCount → s.tb.count = 0 → (s.tb.sync ≠ .root ∨ s.tb.preset = none) → StationsDistinct s →
    let own := s.io.fp.nodeId
    let entry (u : StationUnit) (i : Nat) (e : Station) : Prop := u.table[i]? = some (some e)
    let fresh (h : Hearing) : Bool := decide ((s.mt - h.mt).toInt < 4 * 2 ^ (s.tb.params.exponent + 6))
    let p := s.su.params
    let grew (old new n : Nat) : Prop := old ≤ 4294967295 → new = min (old + n) 4294967295
    let reportOf (i : Nat) : Option (Nat × QFrame) :=
      match s.su.table[i]? with
      | some (some e) =>
        match e.st, e.level with
        | .away (some n) _, some l =>
          if n ≠ own ∧ e.heard = true then
            some (i, {
              hdr := some { src := own, dst := n }
              content := .station (.hearing { station := e.addr, reporter := own, level := l })
              cells := 1 })
          else none
        | _, _ => none
      | _ => none
    let reports := (((List.range 192).map fun k => (s.su.scanPos + k) % 192).filterMap reportOf).take 16
    let quiet : Prop := s.io.cu.reg = none ∧ 17 ≤ s.io.fp.freeCells ∧
      (∀ x ∈ s.hu.slots, ∀ c, x.ctx = some c → ∀ cut l n o sn, c.st ≠ .depart true cut l n o sn) ∧
      ∀ e ∈ s.su.table.filterMap id, e.heard = true → e.level ≠ none
    let best (e : Station) (h : Hearing) : Prop := some h ∈ e.hearings ∧ fresh h = true ∧
      ∀ g, some g ∈ e.hearings → fresh g = true → g.level < h.level ∨ (g.level = h.level ∧ h.node ≤ g.node)
    ∃ t : State, exec .cycleStart s = .next t ∧ t.su.params = p ∧
      (∀ i : Nat, s.su.table[i]? = some none → t.su.table[i]? = some none) ∧
      (∀ i e, entry s.su i e → ∃ heard dwell holdOff, entry t.su i
        { e with heard, hearings := e.hearings.map fun o => o.filter fresh, dwell, holdOff }) ∧
      (quiet → (s.io.port .fp3).mgmt.length + reports.length ≤ 16 →
        (t.io.port .fp3).mgmt = (s.io.port .fp3).mgmt ++ reports.map (·.2) ∧
        grew s.su.counters.hearingsSent t.su.counters.hearingsSent reports.length ∧
        ∀ i e e', entry s.su i e → entry t.su i e' → e'.heard = (e.heard && !(reports.map (·.1)).contains i)) ∧
      (quiet → 16 ≤ (s.io.port .fp3).mgmt.length →
        (t.io.port .fp3).mgmt = (s.io.port .fp3).mgmt ∧ t.su.counters.hearingsSent = s.su.counters.hearingsSent ∧
        ∀ i e e', entry s.su i e → entry t.su i e' → e'.heard = e.heard) ∧
      (quiet → t.su.scanPos = (match (reports.map (·.1)).getLast? with
        | some i => (i + 1) % 192
        | none => s.su.scanPos)) ∧
      (∀ i e e', entry s.su i e → entry t.su i e' →
        (0 < e.holdOff → e'.holdOff = e.holdOff - 1 ∧ e'.dwell = e.dwell) ∧
        (e.holdOff = 0 → (∀ r a, e.st ≠ .serving r a) → e'.holdOff = 0 ∧ e'.dwell = e.dwell) ∧
        (∀ r a, e.holdOff = 0 → e.st = .serving r a →
          ((e.level = none ∨ ∀ h, some h ∈ e.hearings → fresh h = false) → e'.dwell = 0 ∧ e'.holdOff = 0) ∧
          (∀ s0 h, e.level = some s0 → best e h →
            ∃ active : Bool, (active = s.gameActive e.addr ∨ active = t.gameActive e.addr) ∧
              let hyst := if active then p.gameHyst else p.hyst
              let thr := if active then p.gameThr else p.thresh
              let far : Prop := s0 + 16 * hyst ≤ h.level ∧ s0 < 16 * thr
              (¬ far → e'.dwell = 0 ∧ e'.holdOff = 0) ∧
              (far → e.dwell + 1 < p.dwell → e'.dwell = e.dwell + 1 ∧ e'.holdOff = 0) ∧
              (far → p.dwell ≤ e.dwell + 1 → e'.dwell = 0 ∧ e'.holdOff = p.holdOff ∧
                { radio := r, station := e.addr, node := h.node } ∈ t.su.steers ∧
                (t.io.cu.events.get .station).pending = true)))) ∧
      (∀ x ∈ t.su.steers, ∃ i e e' a s0 h, entry s.su i e ∧ entry t.su i e' ∧ e.addr = x.station ∧ e.holdOff = 0 ∧
        e.st = .serving x.radio a ∧ e.level = some s0 ∧ best e h ∧ h.node = x.node ∧ p.dwell ≤ e.dwell + 1 ∧
        e'.holdOff = p.holdOff) ∧
      grew s.su.counters.steersSent t.su.counters.steersSent t.su.steers.length

/-! ## The Egress Service -/

/-- The window in effect and the airtime of a frame (R77, R79, R80). -/
def Obligations.WindowInEffectAndAirtime : Prop :=
  (∀ (e : Egress) (tb : TimeBase),
    let pos := tb.mt.toNat % 2 ^ tb.params.exponent
    let covers (w : Window) : Prop :=
      w.inUse = true ∧ tb.count % 2 ^ w.k = w.c ∧ w.start ≤ pos ∧ pos < w.start + w.length
    (∀ i, e.inEffect tb = .window i ↔
      ∃ w, e.active[i]? = some w ∧ covers w ∧ ∀ j v, j < i → e.active[j]? = some v → ¬ covers v) ∧
    (e.inEffect tb = .gap ↔ ∀ w ∈ e.active, ¬ covers w)) ∧
  (∀ (e : Egress) (own : Nat) (f : QFrame),
    let len := f.content.payload.length + (if f.hdr.isSome then 18 else 0) + (if f.link.isSome then 14 else 0)
    let airtime (rate : Nat) : Prop := e.airtime own f = e.overhead + (8 * len + rate - 1) / rate
    (∀ h p, f.hdr = some h → 1 ≤ h.dst → e.peers[h.dst - 1]? = some p → airtime (if p.inUse then p.rate else 100)) ∧
    (∀ h, f.hdr = some h → h.dst = 0 →
      let others := (e.peers.zipIdx 1).filter fun x => x.1.inUse && x.2 != own
      (others = [] → airtime 100) ∧
      (∀ x ∈ others, (∀ y ∈ others, x.1.rate ≤ y.1.rate) → airtime x.1.rate)))

/-- A choice at a port (R73, R74, R78, R82): nothing while the transmitter is not free or no listed
event has come since the last choice; else the beacon, the management head, the first class with credit, the first class
that borrows, or nothing; a class frame is charged, at most down to -1,535. A FRAME_RELEASE without a listed event since the
last choice changes nothing (log 29, DEDUCED). -/
def Obligations.FramesAreChosenAndCharged : Prop :=
  ∀ (p : Port) (s : State),
    let go := exec (.frameRelease p) s
    let e := s.io.port p
    let idle := s.io.onPort p fun x => { x with choiceDue := false }
    let window (allowed : Window → Bool) (f : QFrame) : Prop := p ≠ .fp3 ∨
      (s.tb.quietNow = false ∧ ∃ w, s.io.es.current s.tb = some w ∧ w.kind ≠ .beacon ∧
        (w.kind = .owned → w.owner = s.io.fp.nodeId) ∧ allowed w = true ∧
        s.tb.mt.toNat % 2 ^ s.tb.params.exponent + s.io.es.airtime s.io.fp.nodeId f + s.io.es.guardTime ≤
          w.start + w.length)
    let mgmtReady (f : QFrame) : Prop := e.mgmt.head? = some f ∧ window (fun _ => true) f
    let ready (k : Nat) (f : QFrame) : Prop := k ≤ 3 ∧ (e.queue.get k).head? = some f ∧ window (fun w => w.mask.get k) f
    let noBeacon : Prop := p = .fp3 → s.io.es.beaconPos = none
    let sent (k : Nat) (f : QFrame) (borrowed : Bool) : Io := s.io.onPort p fun x =>
      { x with
        choiceDue := false
        queue := x.queue.set k (x.queue.get k).tail
        credit := x.credit.set k (max (x.credit.get k - (f.sentLen : Int)) (-1535))
        tx := .busy f
        counters := if borrowed then { x.counters with borrowed := satInc x.counters.borrowed } else x.counters }
    let asks : Prop := e.tx = .free ∧ e.choiceDue = true
    (¬ asks → go = .next s) ∧
    (∀ f, asks → p = .fp3 → s.io.es.beaconPos = some f →
      go = .next { s with io := (s.io.onEs fun x => { x with beaconPos := none }).onPort .fp3 fun x =>
        { x with choiceDue := false, tx := .busy f } }) ∧
    (∀ f, asks → noBeacon → mgmtReady f →
      go = .next { s with io := s.io.onPort p fun x => { x with choiceDue := false, mgmt := x.mgmt.tail, tx := .busy f } }) ∧
    (∀ k f, asks → noBeacon → (¬ ∃ g, mgmtReady g) → ready k f → 0 < e.credit.get k →
      (∀ j g, j < k → ready j g → e.credit.get j ≤ 0) → go = .next { s with io := sent k f false }) ∧
    (∀ k f, asks → noBeacon → (¬ ∃ g, mgmtReady g) → (∀ j g, ready j g → e.credit.get j ≤ 0) →
      ready k f → (e.inUse.get k).borrow = true → (∀ j g, j < k → ready j g → (e.inUse.get j).borrow = false) →
      go = .next { s with io := sent k f true }) ∧
    (asks → noBeacon → (¬ ∃ g, mgmtReady g) →
      (∀ j g, ready j g → e.credit.get j ≤ 0 ∧ (e.inUse.get j).borrow = false) → go = .next { s with io := idle })

/-- A window opening (R77, R81, R82): the window in effect is noted and a choice is due; outside a quiet cycle the heads
of the queues the window allows that cannot fit the window's length with the guard are dropped, one after the other until
a head would fit, the management queue before the classes (log 38, the model's choice); each is counted and raised, and
the Handoff Unit is told of a failure for a FWD frame, which stands in a class queue, before the next head is judged (R116
to R118). Where several heads go, the record of BACKHAUL events sends no notice that would be judged in its turn. An
observation that finds the noted window changes nothing (log 6, DEDUCED). -/
def Obligations.WindowOpeningsDropOversizeHeads : Prop :=
  ∀ s : State,
    let now := s.io.es.inEffect s.tb
    let go := exec .windowOpening s
    let noted := (s.io.onEs fun e => { e with seen := some now }).onPort .fp3 fun x => { x with choiceDue := true }
    let q := s.io.port .fp3
    let silent : Prop := s.io.cu.reg = none ∨ (s.io.cu.events.get .backhaul).enable = false ∨
      (s.io.cu.events.get .backhaul).pending = true
    (s.io.es.seen = some now → go = .next s) ∧
    (s.io.es.seen ≠ some now → now = .gap → go = .next { s with io := noted }) ∧
    (s.io.es.seen ≠ some now → s.tb.quietNow = true → go = .next { s with io := noted }) ∧
    (∀ i w, s.io.es.seen ≠ some now → now = .window i → s.io.es.active[i]? = some w → s.tb.quietNow = false →
      let mine : Prop := w.kind = .opened ∨ (w.kind = .owned ∧ w.owner = s.io.fp.nodeId)
      let fits (f : QFrame) : Prop := s.io.es.airtime s.io.fp.nodeId f + s.io.es.guardTime ≤ w.length
      let classesFit : Prop := ∀ k f, k ≤ 3 → w.mask.get k = true → (q.queue.get k).head? = some f → fits f
      (¬ mine → go = .next { s with io := noted }) ∧
      (mine → (∀ f, q.mgmt.head? = some f → fits f) → classesFit → go = .next { s with io := noted }) ∧
      (∀ f rest h, mine → q.mgmt = f :: rest → f.hdr = some h → f.mark = none → ¬ fits f →
        (∀ g, rest.head? = some g → fits g) → classesFit → (rest ≠ [] ∨ silent) →
        go = .next { s with
          io := raise (.oversize .fp3 .mgmt f.sentLen h.dst i) (freeCells f.cells (noted.onPort .fp3 fun x =>
            { x with mgmt := rest, counters := { x.counters with oversize := satInc x.counters.oversize } })) }) ∧
      (∀ k f rest h, mine → k ≤ 3 → w.mask.get k = true → q.queue.get k = f :: rest → f.hdr = some h → f.mark = none →
        ¬ fits f → (∀ g, rest.head? = some g → fits g) → (∀ g, q.mgmt.head? = some g → fits g) →
        (∀ j g, j ≤ 3 → j ≠ k → w.mask.get j = true → (q.queue.get j).head? = some g → fits g) →
        go = .next { s with
          io := raise (.oversize .fp3 (.cls k) f.sentLen h.dst i) (freeCells f.cells (noted.onPort .fp3 fun x =>
            { x with
              queue := x.queue.set k rest
              counters := { x.counters with oversize := satInc x.counters.oversize } })) })) ∧
    (∀ i w, s.io.es.seen ≠ some now → now = .window i → s.io.es.active[i]? = some w → s.tb.quietNow = false → silent →
      let mine : Bool := w.kind = .opened || (w.kind = .owned && w.owner = s.io.fp.nodeId)
      let misfit (f : QFrame) : Bool := w.length < s.io.es.airtime s.io.fp.nodeId f + s.io.es.guardTime
      let allowed (id : QueueId) : Bool := mine && match id with
        | .mgmt => true
        | .cls k => w.mask.get k
      let left (id : QueueId) : List QFrame := if allowed id then (q.q id).dropWhile misfit else q.q id
      let dropped := [QueueId.mgmt, .cls 0, .cls 1, .cls 2, .cls 3].flatMap fun id =>
        if allowed id then ((q.q id).takeWhile misfit).map fun f => (id, f) else []
      let marks := dropped.filterMap fun x => match x.1 with
        | .mgmt => none
        | .cls _ => x.2.mark
      let drop (t : State) (x : QueueId × QFrame) : State :=
        let u : State := t.onIo fun io =>
          raise (.oversize .fp3 x.1 x.2.sentLen (x.2.dstNode.getD 0) i) (freeCells x.2.cells (io.onPort .fp3 fun e =>
            { e.setQ x.1 (e.q x.1).tail with counters := { e.counters with oversize := satInc e.counters.oversize } }))
        match x.1, x.2.mark with
        | .cls _, some m => toldFwd m false u
        | _, _ => u
      go = .next (dropped.foldl drop { s with io := noted }) ∧
      let hits (j : Nat) (x : CtxSlot) : Nat := marks.countP fun m => m.slot = j && m.gen = x.gen
      let cells := (dropped.map fun x => x.2.cells).sum
      ∃ t, go = .next t ∧ t.tb = s.tb ∧ t.cl = s.cl ∧ t.su = s.su ∧ t.se = s.se ∧ t.ie = s.ie ∧ t.io.es.seen = some now ∧
        (∀ k, k ≤ 3 → (t.io.port .fp3).queue.get k = left (.cls k)) ∧
        (q.counters.oversize ≤ 4294967295 →
          (t.io.port .fp3).counters.oversize = min (q.counters.oversize + dropped.length) 4294967295) ∧
        (dropped = [] → t.io.cu = s.io.cu) ∧
        (∀ id f h rest, dropped = (id, f) :: rest → f.hdr = some h →
          let r := s.io.cu.events.get .backhaul
          (r.pending = true → r.count ≤ 65535 →
            t.io.cu.events.get .backhaul = { r with count := min (r.count + dropped.length) 65535 }) ∧
          (r.pending = false → t.io.cu.events.get .backhaul =
            { r with
              pending := true, first := some (.oversize .fp3 id f.sentLen h.dst i), count := min dropped.length 65535 })) ∧
        (marks = [] → t.hu = s.hu ∧ (t.io.port .fp3).mgmt = left .mgmt ∧
          t.io.fp.freeCells = s.io.fp.freeCells + cells) ∧
        (∀ (j : Nat) (x : CtxSlot), s.hu.slots[j]? = some x →
          ((x.ctx = none ∨ hits j x = 0 ∨ ∃ c v, x.ctx = some c ∧ c.st = .arrive v) → t.hu.slots[j]? = some x) ∧
          (∀ c cut l n o sn, x.ctx = some c → c.st = .depart false cut l n o sn →
            t.hu.slots[j]? = some { x with ctx := some { c with st := .depart false cut l n (o - hits j x) sn } }) ∧
          (∀ c v p ch cut n o, x.ctx = some c → c.st = .await v p ch cut n o →
            t.hu.slots[j]? = some { x with ctx := some { c with st := .await v p ch cut n (o - hits j x) } }) ∧
          (∀ c cut l n o sn, x.ctx = some c → c.st = .depart true cut l n o sn →
            (hits j x < o →
              t.hu.slots[j]? = some { x with ctx := some { c with st := .depart true cut l n (o - hits j x) sn } }) ∧
            (0 < hits j x → o ≤ hits j x → (∀ y ∈ s.hu.slots, ∀ d, y.ctx = some d → d.hints.length ≤ 8) →
              marks.length ≤ s.io.fp.freeCells → (left .mgmt).length + marks.length ≤ 16 →
              t.hu.slots[j]? = some { x with ctx := none } ∧
                ∃ al, (∀ v, sn = some v → al = v) ∧ (sn = none → al.known = false) ∧
                  releaseFrame s c.station c.peer n al c.hints ∈ (t.io.port .fp3).mgmt))))

/-- A transmit-done (R75, R116 to R118): the slot is free and a choice is due, the frame's cells return, and the frame is
counted; a failure is reported; a FWD frame's outcome goes to the context that placed it, if it still holds its slot, and in
FLUSHING the last outstanding one brings its RELEASE, which waits where the pool or the queue refuses it. The destination
in the report of a frame without a mesh header is a free value (log 9). -/
def Obligations.TransmitDoneEndsAFrame : Prop :=
  ∀ (p : Port) (ok : Bool) (s : State),
    let go := exec (.transmitDone p ok) s
    let tx := (s.io.port p).tx
    let freeSlot := s.io.onPort p fun x => { x with tx := .free, choiceDue := true }
    let done (n : Nat) : Io := countEs p (fun c => { c with framesOut := satInc c.framesOut }) (freeCells n freeSlot)
    let failed (n : Nat) : Io := countEs p (fun c => { c with txFail := satInc c.txFail }) (freeCells n freeSlot)
    let report (k : Kind) (dst : Nat) : Event :=
      if p = .fp3 then .backhaulTxFailed p k dst else .bufferTxFailed p k dst
    (tx = .free → go = .next s) ∧
    (∀ k, tx = .givenUp k → go = .next { s with io := freeSlot }) ∧
    (∀ f, tx = .busy f → f.mark = none → ok = true → f.kind ≠ .beacon → go = .next { s with io := done f.cells }) ∧
    (∀ f, tx = .busy f → f.mark = none → ok = true → f.kind = .beacon →
      go = .next { s with
        io := done f.cells
        tb := { s.tb with counters := { s.tb.counters with beaconsSent := satInc s.tb.counters.beaconsSent } } }) ∧
    (∀ f h, tx = .busy f → f.mark = none → ok = false → f.hdr = some h →
      go = .next { s with io := raise (report f.kind h.dst) (failed f.cells) }) ∧
    (∀ f, tx = .busy f → f.mark = none → ok = false → f.hdr = none →
      ∃ n, go = .next (s.onIo fun io => raise (report f.kind n) { failed f.cells with freeCount := io.freeCount + 1 })) ∧
    (∀ f h m x, tx = .busy f → f.hdr = some h → f.mark = some m → f.kind = .data → s.hu.slots[m.slot]? = some x →
      let io := if ok then done f.cells else raise (report f.kind h.dst) (failed f.cells)
      ((x.ctx = none ∨ x.gen ≠ m.gen) → go = .next { s with io := io }) ∧
      (∀ c cut l n o sn, x.ctx = some c → x.gen = m.gen → c.st = .depart false cut l n o sn → n < 65535 →
        let c' : Context := { c with st := .depart false cut l (if ok then n + 1 else n) (o - 1) sn }
        go = .next { s with
          io := io
          hu := { s.hu with
            slots := s.hu.slots.set m.slot { x with ctx := some c' }
            counters := if ok then { s.hu.counters with fwdSent := satInc s.hu.counters.fwdSent } else s.hu.counters } }) ∧
      (∀ c, x.ctx = some c → x.gen = m.gen →
        let told (st : CtxState) : State :=
          { s with
            io := io
            hu := { s.hu with
              slots := s.hu.slots.set m.slot { x with ctx := some { c with st := st } }
              counters := if ok then { s.hu.counters with fwdSent := satInc s.hu.counters.fwdSent } else s.hu.counters } }
        (∀ v, c.st = .arrive v → go = .next { s with io := io }) ∧
        (∀ v pre ch cut n o, c.st = .await v pre ch cut n o → n < 65535 →
          go = .next (told (.await v pre ch cut (if ok then n + 1 else n) (o - 1)))) ∧
        (∀ cut l n o sn, c.st = .depart true cut l n o sn → n < 65535 →
          let n' := if ok then n + 1 else n
          (2 ≤ o → go = .next (told (.depart true cut l n' (o - 1) sn))) ∧
          (o ≤ 1 → c.hints.length ≤ 8 → (ok = true ∨ s.io.cu.reg = none) → 1 ≤ s.io.fp.freeCells + f.cells →
            (s.io.port .fp3).mgmt.length < 16 →
            ∃ t, go = .next t ∧ t.hu.slots = s.hu.slots.set m.slot { x with ctx := none } ∧
              t.hu.counters.fwdSent = (if ok then satInc s.hu.counters.fwdSent else s.hu.counters.fwdSent) ∧
              ReleaseQueued c.station c.peer n' sn c.hints s t) ∧
          (o ≤ 1 → (ok = true ∨ s.io.cu.reg = none) → (16 ≤ (s.io.port .fp3).mgmt.length ∨ s.io.fp.freeCells + f.cells = 0) →
            ∃ t, go = .next t ∧ t.hu = (told (.depart true cut l n' 0 sn)).hu ∧
              (t.io.port .fp3).mgmt = (s.io.port .fp3).mgmt))))

/-! ## Frames arriving -/

/-- The checks of an arriving frame and the drops of its header (R28, R32, R33, R34), for frames whose length the port
takes and whose cells are to be had. A dropped frame leaves its cells as they were. The link type behind two addresses in
a link header of 14 bytes is log 7's (PRESUMED), and the least length of a frame on FP3, 18 bytes for a management kind
and 32 elsewhere, with a malformed header found before an unknown kind, log 26's (DEDUCED). A CONTROL frame on FP3 for
another node is NOT_FOR_NODE whatever its payload (log 57, the model's choice). -/
def Obligations.FrameChecksInOrder : Prop :=
  ∀ (p : Port) (bytes : List Byte) (stamp : Option Time) (s : State),
    let go := exec (.frameArrival p false bytes stamp) s
    let limit := if p = .fp3 then 1536 else 1518
    let mesh := if p = .fp3 then bytes else bytes.drop 14
    let marked : Prop := p = .fp3 ∨ field bytes 12 2 = 0x8AF3
    let kind := field mesh 1 1
    let least := if p = .fp3 then (if 2 ≤ kind ∧ kind ≤ 6 then 18 else 32) else if field bytes 12 2 = 0x8AF3 then 32 else 14
    let n := (bytes.length + 255) / 256
    let held : Prop := least ≤ bytes.length ∧ bytes.length ≤ limit ∧ n ≤ s.io.fp.freeCells
    let malformed : Prop := field mesh 0 1 ≠ 1 ∨ field mesh 4 1 = 0 ∨ 8 < field mesh 4 1 ∨ 8 < field mesh 5 1 ∨
      field mesh 12 2 ≠ mesh.length - 18
    let dropped (f : FpCounters → FpCounters) : State := { s with io := countFp f (tookFrame p n s.io) }
    (exec (.frameArrival p true bytes stamp) s =
      .next { s with io := countFp (fun c => { c with rxError := c.rxError.inc p }) s.io }) ∧
    ((limit < bytes.length ∨ bytes.length < least) →
      go = .next { s with io := countFp (fun c => { c with lengthError := c.lengthError.inc p }) s.io }) ∧
    (∀ k, least ≤ bytes.length → bytes.length ≤ limit → marked → kindOf kind = some k → k ≠ .data →
      s.io.fp.freeCells < n →
      go = .next (s.onIo fun io => raise (.poolExhausted p k n)
        (countFp (fun c => { c with poolFull := c.poolFull.inc p }) io))) ∧
    (held → marked → 2 ≤ kind → kind ≤ 6 → malformed →
      go = .next (dropped fun c => { c with malformedHeader := c.malformedHeader.inc p })) ∧
    (held → marked → ¬ malformed → (kind = 0 ∨ 6 < kind) →
      go = .next ((dropped fun c => { c with unknownKind := c.unknownKind.inc p }).onIo Io.bumpFree)) ∧
    (held → marked → ¬ malformed → p ≠ .fp3 → 2 ≤ kind → kind ≤ 6 → kind ≠ 3 →
      go = .next (dropped fun c => { c with wrongPortKind := c.wrongPortKind.inc p })) ∧
    (held → p = .fp3 → ¬ malformed → 3 ≤ kind → kind ≤ 6 → field mesh 5 1 ≠ 0 → field mesh 5 1 ≠ s.io.fp.nodeId →
      go = .next (dropped fun c => { c with notForNode := satInc c.notForNode }))

/-- A frame is the row of its kind: a frame of any kind that chapter 10 spells runs, at its port, exactly the command that
stands for it. On FP0 to FP2 the link type at offset 12 of a 14-byte link header tells a mesh frame (log 7, PRESUMED). A
NOTICE or a response runs its row whatever its body holds (log 58), and a MAP QUERY and a MAP REPORT whatever 2-byte
indices and counts they carry (log 59), both the model's choice. -/
def Obligations.FramesAreTheirRows : Prop :=
  ∀ (s : State) (src dst : Nat) (stamp : Option Time),
    let frame (k : Kind) (body : List Byte) : List Byte := hdrBytes k { src, dst } body.length ++ body
    let run (f : List Byte) : Host.Outcome State Fault Refusal := exec (.frameArrival .fp3 false f stamp) s
    let here : Prop := dst = s.io.fp.nodeId ∨ dst = 0
    let image (query id : Nat) (b : ImageBody) : Host.Outcome State Fault Refusal :=
      run (frame .image (imageBytes { query, id, body := b }))
    (∀ (p : Port) (bytes : List Byte), p ≠ .fp3 → 14 ≤ bytes.length → bytes.length ≤ 1518 → field bytes 12 2 ≠ 0x8AF3 →
      exec (.frameArrival p false bytes stamp) s = exec (.dataFrameArrival p none bytes) s) ∧
    (1 ≤ src → src ≤ 8 → dst ≤ 8 →
      (∀ (b : Beacon) (cap : Time), b.wf = true → stamp = some cap →
        run (frame .beacon (beaconBytes b)) = exec (.beaconReceived b cap) s) ∧
      (∀ payload : List Byte, payload.length ≤ 1518 →
        run (frame .control payload) = exec (.controlRequestArrival .fp3 ⟨src, dst⟩ payload) s ∧
        run (frame .notice payload) = exec (.responseNoticeRelay true ⟨src, dst⟩ payload) s ∧
        (5 ≤ payload.length → field payload 0 1 = 2 →
          run (frame .control payload) = exec (.responseNoticeRelay false ⟨src, dst⟩ payload) s)) ∧
      (∀ (p : Port) (link payload : List Byte), p ≠ .fp3 → link.length = 12 → payload.length ≤ 1486 →
        exec (.frameArrival p false (link ++ be 2 0x8AF3 ++ frame .control payload) stamp) s =
          exec (.controlRequestArrival p ⟨src, dst⟩ payload) s) ∧
      (here →
        (∀ c : Claim, c.wf = true → run (frame .station (stationBytes (.claim c))) = exec (.claimReceived c) s) ∧
        (∀ r : Release, r.wf = true → run (frame .station (stationBytes (.release r))) = exec (.releaseReceived r) s) ∧
        (∀ h : HearingMsg, h.wf = true → run (frame .station (stationBytes (.hearing h))) = exec (.hearingReceived h) s) ∧
        (∀ (fwd : Bool) (cls : Nat) (station : Addr) (bytes : List Byte), cls ≤ 3 → 14 ≤ bytes.length →
          bytes.length ≤ 1518 →
          run (hdrBytes .data { fwd, cls, src, dst, station } bytes.length ++ bytes) =
            exec (.dataFrameArrival .fp3 (some { fwd, cls, src, station }) bytes) s) ∧
        (∀ query id : Nat, fits 2 query = true → fits 2 id = true →
          (∀ v n crc rep, fits 4 v = true → fits 2 n = true → fits 4 crc = true →
            image query id (.announce v n crc rep) = exec (.announce src query ⟨id, v, n, crc⟩ rep) s) ∧
          (∀ i crc data, fits 2 i = true → fits 2 crc = true → data.length = 1024 →
            image query id (.block i crc data) = exec (.blockMessage id i crc data) s) ∧
          (∀ i, fits 2 i = true → image query id (.mapQuery i) = exec (.mapQuery src query id i) s) ∧
          image query id .verifyQuery = exec (.verifyQuery src query id) s ∧
          (∀ c force, image query id (.propose c force) = exec (.propose src query id c force) s) ∧
          image query id .cancel = exec (.cancel src query id) s ∧
          (∀ t, image query id (.quietRequest t) = exec (.quietRequest src query id t) s) ∧
          (∀ r, image query id (.announceReply r) = exec (.announceReply query r) s) ∧
          (∀ m : MapContent, m.wf = true → image query id (.mapReport m) = exec (.mapReport query m) s) ∧
          (∀ b, image query id (.verifyReport b) = exec (.verifyReport query b) s) ∧
          (∀ r why, why ≠ .late → image query id (.proposeReply r why) = exec (.proposeReply query r why) s) ∧
          (∀ b, image query id (.cancelReply b) = exec (.cancelReply query b) s) ∧
          (∀ st, image query id (.quietReply st) = exec (.quietReply query st) s))))

/-- A data frame (R41, R51 to R55, R61, R69, R139): refused for want of cells above the reserve; classified by its flow,
by a new flow in an empty slot or in that of the flow evicted, or by the rules alone; a flow whose re-match is pending by
the rules as they stand (R52); a transit flow by the class of the mesh header; dropped by its schedule, by a full class
queue, or placed. A FWD frame its schedule drops counts in at the context that waits, and may complete its arrival or end
its wait (R109, R111, R121). A frame from FP1 or FP2 whose entry is AWAY or DETACHED is classified by the rules alone and
judged under the state that steps 1 and 2 of R137 give its member profile (log 60, the model's choice). Whatever the
frame, the time base, the image engine and the tables of the schedule engine are unchanged. Destination and source of a
link frame and its group bit are log 7's (PRESUMED). -/
def Obligations.DataFramesAreClassified : Prop :=
  (∀ p hdr bytes (s t : State), exec (.dataFrameArrival p hdr bytes) s = .next t →
    t.tb = s.tb ∧ t.ie = s.ie ∧ t.se.active = s.se.active ∧ t.se.staged = s.se.staged ∧ t.se.overrides = s.se.overrides ∧
      t.se.minute = s.se.minute ∧ t.cl.rules = s.cl.rules ∧ t.io.es.beaconPos = s.io.es.beaconPos ∧
      t.io.cu.queue = s.io.cu.queue) ∧
  (∀ p (hdr : Option DataHdr) bytes (s : State),
    let n := (bytes.length + (if hdr.isSome then 18 else 0) + 255) / 256
    s.io.fp.freeCells < n + 64 →
    exec (.dataFrameArrival p hdr bytes) s = .next (s.onIo fun io => raise (.poolExhausted p .data n)
      (countFp (fun c => { c with poolFull := c.poolFull.inc p }) io))) ∧
  (∀ (r : Radio) bytes (s : State),
    let p := radioPort r
    let n := (bytes.length + 255) / 256
    let f : QFrame := { hdr := none, content := .data bytes, cls := 2, cells := n }
    let cl := { s.cl with counters := { s.cl.counters with rulesOnly := satInc s.cl.counters.rulesOnly } }
    let q := (s.io.port .fp0).queue.get 2
    n + 64 ≤ s.io.fp.freeCells → s.io.fp.gateway = true → s.entry (linkSrc bytes) = none → s.entry (linkDst bytes) = none →
    (linkDst bytes).getLsbD 40 = false → s.se.active.member (linkSrc bytes) = 0 → (∀ x ∈ s.cl.rules, x.inUse = false) →
    (queueCells q + n ≤ (s.io.port .fp0).limit.get 2 →
      exec (.dataFrameArrival p none bytes) s = .next { s with
        cl := cl
        io := (countFp (fun c => { c with framesIn := c.framesIn.inc p }) (takeCells n s.io)).onPort .fp0 fun e =>
          { e with queue := e.queue.set 2 (q ++ [f]), choiceDue := true } }) ∧
    ((s.io.port .fp0).limit.get 2 < queueCells q + n →
      exec (.dataFrameArrival p none bytes) s = .next { s with
        cl := cl
        io := raise (.queueDrop .fp0 2 n) (countEs .fp0 (fun c => { c with queueFull := satInc c.queueFull })
          (tookFrame p n s.io)) })) ∧
  (∀ (p : Port) (hint : Option Nat) bytes (s : State) (i j : Nat) (e : Station) (f : Flow),
    let rule : Nat × Bool × Bool := match s.cl.rules.find? fun x => x.covers f.key bytes.length e.profile with
      | some x => (x.cls, x.essential, x.pin)
      | none => (2, false, false)
    let transit : Bool := e.st.isAway
    let given (g : Flow) (k : Nat) : Flow :=
      let r := effUnder s.se (some e) k g.essential
      if k = g.clsClass then g else { g with clsClass := k, effClass := r.1, suppressed := r.2 }
    let anew : Flow := { f with ruleClass := rule.1, essential := rule.2.1, pinned := rule.2.2, rematch := false }
    let k := if transit then f.hint.getD rule.1 else if rule.2.2 = false ∧ f.detected = true then 0 else rule.1
    let g : Flow := if f.rematch then given anew k else f
    let seen : Flow :=
      { g with
        packets := min (f.packets + 1) 4294967295, bytes := min (f.bytes + bytes.length) 4294967295
        cur := true, lastSeen := s.mt }
    let after : Flow := match hint with
      | some h => if transit then given { seen with hint := some h } h else seen
      | none => seen
    StationsDistinct s → FlowsDistinct s → s.su.table[j]? = some (some e) →
    ((p = .fp1 ∨ p = .fp2) → e.st.served = true) → s.cl.flows[i]? = some (some f) → f.key = flowKey e.addr bytes →
    classify p (some e) hint bytes s =
      { cls := after.effClass, suppressed := after.suppressed
        state := { s with
          cl := { s.cl with flows := s.cl.flows.set i (some after) }
          su := { s.su with
            table := s.su.table.set j (some { e with activity := min (e.activity + bytes.length) 4294967295 }) } } }) ∧
  (∀ (r : Radio) (hint : Option Nat) bytes (s : State) (j : Nat) (e : Station),
    let id := s.se.active.member (linkSrc bytes)
    let rule : Nat × Bool := match s.cl.rules.find? fun x => x.covers (flowKey (linkSrc bytes) bytes) bytes.length id with
      | some x => (x.cls, x.essential)
      | none => (2, false)
    let v := judge (s.se.overridden id) (s.se.active.profile id) rule.1 rule.2
    StationsDistinct s → s.su.table[j]? = some (some e) → e.addr = linkSrc bytes → e.st.served = false →
    classify (radioPort r) (some e) hint bytes s =
      { cls := v.1, suppressed := v.2
        state := { s with
          cl := { s.cl with counters := { s.cl.counters with rulesOnly := satInc s.cl.counters.rulesOnly } }
          su := { s.su with
            table := s.su.table.set j (some { e with activity := min (e.activity + bytes.length) 4294967295 }) } } }) ∧
  (∀ bytes (s : State) (i j : Nat) (e : Station) (r : Radio) (a : Allowance) (old f : Flow),
    let d := linkDst bytes
    let n := (bytes.length + 255) / 256
    let rule : Nat × Bool × Bool := match s.cl.rules.find? fun x => x.covers old.key bytes.length e.profile with
      | some x => (x.cls, x.essential, x.pin)
      | none => (2, false, false)
    let k := if rule.2.2 = false ∧ old.detected = true then 0 else rule.1
    let v := if k = old.clsClass then (old.effClass, old.suppressed) else effUnder s.se (some e) k rule.2.1
    StationsDistinct s → FlowsDistinct s → n + 64 ≤ s.io.fp.freeCells → d.getLsbD 40 = false →
    s.su.table[j]? = some (some e) → e.addr = d → e.st = .serving r a →
    s.cl.flows[i]? = some (some old) → old.key = flowKey d bytes → (old.rematch = false → f = old) →
    (old.rematch = true → f = { old with
      ruleClass := rule.1, essential := rule.2.1, pinned := rule.2.2, rematch := false, clsClass := k, effClass := v.1
      suppressed := v.2 }) →
    ∃ t, exec (.dataFrameArrival .fp0 none bytes) s = .next t ∧
      t.cl.flows = s.cl.flows.set i (some { f with
        packets := min (f.packets + 1) 4294967295, bytes := min (f.bytes + bytes.length) 4294967295
        cur := true, lastSeen := s.mt }) ∧
      t.su.table = s.su.table.set j (some { e with activity := min (e.activity + bytes.length) 4294967295 }) ∧
      t.hu = s.hu ∧
      (f.suppressed = true → t.io = tookFrame .fp0 n s.io ∧
        t.se = { s.se with counters := { s.se.counters with scheduleDrop := s.se.counters.scheduleDrop.inc .fp0 } }) ∧
      (let out := radioPort r
       let q := (s.io.port out).queue.get f.effClass
       f.suppressed = false → queueCells q + n ≤ (s.io.port out).limit.get f.effClass →
        t.se = s.se ∧ (t.io.port out).queue.get f.effClass =
          q ++ [{ hdr := none, content := .data bytes, cls := f.effClass, cells := n }] ∧
        t.io.fp.freeCells = s.io.fp.freeCells - n ∧ t.io.port .fp0 = s.io.port .fp0 ∧ t.io.port .fp3 = s.io.port .fp3)) ∧
  (∀ bytes (s : State) (i j : Nat) (e : Station) (r : Radio) (a : Allowance),
    let p := radioPort r
    let key := flowKey (linkSrc bytes) bytes
    StationsDistinct s → FlowsDistinct s → (bytes.length + 255) / 256 + 64 ≤ s.io.fp.freeCells → bytes.length ≤ 1518 →
    s.su.table[j]? = some (some e) → e.addr = linkSrc bytes → e.st = .serving r a →
    (∀ (k : Nat) (g : Flow), s.cl.flows[k]? = some (some g) → g.key ≠ key) → s.cl.flows[i]? = some none →
    (∀ k, k < i → ∃ g, s.cl.flows[k]? = some (some g)) →
    ∃ t g, exec (.dataFrameArrival p none bytes) s = .next t ∧ t.cl.flows = s.cl.flows.set i (some g) ∧
      g.key = key ∧ g.packets = 1 ∧ g.bytes = bytes.length ∧ g.q = 0 ∧ g.detected = false ∧ g.cur = true ∧ g.prev = false ∧
      g.lastSeen = s.mt ∧
      (g.ruleClass, g.essential, g.pinned) =
        (match s.cl.rules.find? fun x => x.covers key bytes.length e.profile with
         | some x => (x.cls, x.essential, x.pin)
         | none => (2, false, false)) ∧
      g.clsClass = g.ruleClass ∧ t.cl.counters.flowsCreated = satInc s.cl.counters.flowsCreated) ∧
  (∀ bytes (s : State) (j : Nat) (e : Station) (r : Radio) (a : Allowance),
    let p := radioPort r
    let key := flowKey (linkSrc bytes) bytes
    let candidate (i : Nat) (f : Flow) : Prop :=
      s.cl.flows[i]? = some (some f) ∧ f.pinned = false ∧ f.cur = false ∧ f.prev = false
    let age (f : Flow) : Int := max 0 (s.mt - f.lastSeen).toInt
    StationsDistinct s → FlowsDistinct s → (bytes.length + 255) / 256 + 64 ≤ s.io.fp.freeCells → bytes.length ≤ 1518 →
    s.su.table[j]? = some (some e) → e.addr = linkSrc bytes → e.st = .serving r a →
    (∀ (k : Nat) (g : Flow), s.cl.flows[k]? = some (some g) → g.key ≠ key) → (∀ o ∈ s.cl.flows, o.isSome = true) →
    (∀ i f, candidate i f → (∀ k g, candidate k g → age g < age f ∨ (age g = age f ∧ i ≤ k)) →
      ∃ t g, exec (.dataFrameArrival p none bytes) s = .next t ∧ t.cl.flows = s.cl.flows.set i (some g) ∧ g.key = key ∧
        g.packets = 1 ∧ g.q = 0 ∧ g.detected = false ∧
        t.cl.counters.flowsEvicted = satInc s.cl.counters.flowsEvicted ∧
        t.cl.counters.flowsCreated = satInc s.cl.counters.flowsCreated) ∧
    ((∀ i f, ¬ candidate i f) →
      ∃ t : State, exec (.dataFrameArrival p none bytes) s = .next t ∧ t.cl.flows = s.cl.flows ∧
        t.cl.counters.flowFull = satInc s.cl.counters.flowFull ∧ (t.io.cu.events.get .flow).pending = true ∧
        t.su.table = s.su.table.set j (some { e with activity := min (e.activity + bytes.length) 4294967295 }))) ∧
  (∀ bytes (s : State) (i j : Nat) (e : Station) (old f : Flow) (h : DataHdr) server pending,
    let rule : Nat × Bool × Bool := match s.cl.rules.find? fun x => x.covers old.key bytes.length e.profile with
      | some x => (x.cls, x.essential, x.pin)
      | none => (2, false, false)
    let k := old.hint.getD rule.1
    let v := if k = old.clsClass then (old.effClass, old.suppressed) else (k, false)
    StationsDistinct s → FlowsDistinct s → (bytes.length + 18 + 255) / 256 + 64 ≤ s.io.fp.freeCells →
    s.su.table[j]? = some (some e) → e.addr = h.station → h.station ≠ 0 → e.st = .away server pending → e.eff = none →
    s.cl.flows[i]? = some (some old) → old.key = flowKey h.station bytes → (old.rematch = false → f = old) →
    (old.rematch = true → f = { old with
      ruleClass := rule.1, essential := rule.2.1, pinned := rule.2.2, rematch := false, clsClass := k, effClass := v.1
      suppressed := v.2 }) → h.fwd = false →
    ∃ t : State, exec (.dataFrameArrival .fp3 (some h) bytes) s = .next t ∧
      t.cl.flows = s.cl.flows.set i (some { f with
        packets := min (f.packets + 1) 4294967295, bytes := min (f.bytes + bytes.length) 4294967295
        cur := true, lastSeen := s.mt, hint := some h.cls, clsClass := h.cls
        effClass := if f.clsClass = h.cls then f.effClass else h.cls
        suppressed := if f.clsClass = h.cls then f.suppressed else false }) ∧
      t.su.table = s.su.table.set j (some { e with activity := min (e.activity + bytes.length) 4294967295 })) ∧
  (∀ bytes (s : State) (h : DataHdr) (n : Nat),
    let go := exec (.dataFrameArrival .fp3 (some h) bytes) s
    let c := classify .fp3 ((if h.station = 0 then none else some h.station).bind s.entry) (some h.cls) bytes
      { s with io := countFp (fun x => { x with framesIn := x.framesIn.inc .fp3 }) (takeCells n s.io) }
    let drops (z : SeCounters) : SeCounters := { z with scheduleDrop := z.scheduleDrop.inc .fp3 }
    let dropped : State :=
      { c.state with
        io := freeCells n c.state.io
        se := { c.state.se with counters := drops c.state.se.counters } }
    let counted (w : Waiting) : Waiting := { w with received := min (w.received + 1) 65535 }
    let waits (w : Waiting) : Prop := ∀ t, w.taken = some t → (counted w).received < t.expected
    let met (w : Waiting) (al : Allowance) : Prop :=
      ∃ t, w.taken = some t ∧ t.expected ≤ (counted w).received ∧ al = t.carried
    let told (i : Nat) (k : Context) (st : CtxState) : State :=
      { dropped with hu := { dropped.hu with
        slots := dropped.hu.slots.modify i fun y => { y with ctx := some { k with st := st } } } }
    n = (bytes.length + 18 + 255) / 256 → n + 64 ≤ s.io.fp.freeCells → c.suppressed = true → h.fwd = true →
    (∀ (i : Nat) (y : CtxSlot) (k : Context) (w : Waiting), s.arriveOf h.station = some (i, k) →
      s.hu.slots[i]? = some y → k.st = .arrive w →
      (waits w → go = .next (told i k (.arrive (counted w)))) ∧
      (∀ al, met w al → ∃ t, go = .next t ∧
        ArrivalCompleted i y k (counted w) (some al) (told i k (.arrive (counted w))) t)) ∧
    (s.arriveOf h.station = none →
      (∀ (i : Nat) (y : CtxSlot) (k : Context) (w : Waiting) pr ch cut o₁ o₂, s.departOf h.station = some (i, k) →
        s.hu.slots[i]? = some y → k.st = .await w pr ch cut o₁ o₂ →
        (waits w → go = .next (told i k (.await (counted w) pr ch cut o₁ o₂))) ∧
        (∀ al, met w al → ∃ t, go = .next t ∧
          WaitEnded i y k (counted w) pr ch cut o₁ o₂ (told i k (.await (counted w) pr ch cut o₁ o₂)) t ∧
          t.hu.counters.contextsLost = s.hu.counters.contextsLost)) ∧
      ((s.departOf h.station = none ∨
          ∃ i k fl cut l o₁ o₂ sn, s.departOf h.station = some (i, k) ∧ k.st = .depart fl cut l o₁ o₂ sn) →
        go = .next dropped)))

/-- Where a data frame goes that its schedule lets through (R42 to R47, R108, R109, R116, R118): a group address and its
copies, the original placed first and then each copy given its cells and placed in port order (log 50, the model's
choice); a single address by its entry, its contexts, or the role of the node; a FWD frame to the contexts of its station,
with the arrival it completes and the wait it ends (R111, R121). What the classification gives is
`DataFramesAreClassified`'s. The bit of a group address, and that a copy asks for as many cells as the original took, are
logs 7 (PRESUMED) and 37; that a frame from the server itself drops as NO_ROUTE before the contexts are asked is log 23,
and that a refused copy counts POOL_FULL at the port it would have left by is log 29 (both DEDUCED). -/
def Obligations.DataFramesAreRouted : Prop :=
  ∀ (p : Port) (hdr : Option DataHdr) (bytes : List Byte) (s : State),
    let n := (bytes.length + (if hdr.isSome then 18 else 0) + 255) / 256
    let own := s.io.fp.nodeId
    let d := linkDst bytes
    let address : Option Addr := match p with
      | .fp0 => if d.getLsbD 40 then none else some d
      | .fp1 => some (linkSrc bytes)
      | .fp2 => some (linkSrc bytes)
      | .fp3 => hdr.bind fun h => if h.station = 0 then none else some h.station
    let station := address.bind s.entry
    let c := classify p station (hdr.map (·.cls)) bytes
      { s with io := countFp (fun k => { k with framesIn := k.framesIn.inc p }) (takeCells n s.io) }
    let x := c.state
    let f : QFrame := { hdr := none, content := .data bytes, cls := c.cls, cells := n }
    let go (io : Io) (hu : HandoffUnit) : Prop := exec (.dataFrameArrival p hdr bytes) s = .next { x with io, hu }
    let fits (q : Port) (g : QFrame) (io : Io) : Prop :=
      queueCells ((io.port q).queue.get g.cls) + g.cells ≤ (io.port q).limit.get g.cls
    let queued (q : Port) (g : QFrame) (io : Io) : Io :=
      io.onPort q fun e => { e with queue := e.queue.set g.cls (e.queue.get g.cls ++ [g]), choiceDue := true }
    let refused (q : Port) (g : QFrame) (io : Io) : Io :=
      raise (.queueDrop q g.cls g.cells)
        (countEs q (fun k => { k with queueFull := satInc k.queueFull }) (freeCells g.cells io))
    let put (q : Port) (g : QFrame) (io io' : Io) : Prop :=
      (fits q g io → io' = queued q g io) ∧ (¬ fits q g io → io' = refused q g io)
    let mesh (dst : Nat) : QFrame :=
      let h : MeshHdr :=
        { cls := c.cls, src := own, dst
          station := if d.getLsbD 40 = false ∧ (s.entry d).isSome then d else (station.map (·.addr)).getD 0 }
      { f with hdr := some h }
    let goes (q : Port) (g : QFrame) : Prop := ∃ io, put q g x.io io ∧ go io x.hu
    let noRoute : Prop := go (countFp (fun k => { k with noRoute := satInc k.noRoute }) (freeCells n x.io)) x.hu
    let setCtx (i : Nat) (k : Context) (hu : HandoffUnit) : HandoffUnit :=
      { hu with slots := hu.slots.modify i fun y => { y with ctx := some k } }
    let dropped (hu : HandoffUnit) : HandoffUnit :=
      { hu with counters := { hu.counters with holdDrop := satInc hu.counters.holdDrop } }
    let holds (i : Nat) (k : Context) (w : Waiting) (new : Waiting → CtxState) : Prop :=
      let room : Prop := queueCells w.hold + n ≤ 64 ∧ s.hu.holdCells + n ≤ 512
      (room → go x.io (setCtx i { k with st := new { w with hold := w.hold ++ [f] } } x.hu)) ∧
      (¬ room → go (freeCells n x.io) (setCtx i { k with drops := min (k.drops + 1) 65535 } (dropped x.hu)))
    let marked (i : Nat) (k : Context) (y : CtxSlot) : QFrame :=
      { f with
        hdr := some { fwd := true, cls := c.cls, src := own, dst := k.peer, station := k.station }
        mark := some { slot := i, gen := y.gen } }
    let forwards (i : Nat) (k : Context) (y : CtxSlot) (sent kept : CtxState) : Prop :=
      let g := marked i k y
      (fits .fp3 g x.io → go (queued .fp3 g x.io) (setCtx i { k with st := sent } x.hu)) ∧
      (¬ fits .fp3 g x.io → go (refused .fp3 g x.io) (setCtx i { k with st := kept } x.hu))
    let waits (w : Waiting) : Prop := ∀ t, w.taken = some t → min (w.received + 1) 65535 < t.expected
    let counted (w : Waiting) : Waiting := { w with received := min (w.received + 1) 65535 }
    let met (w : Waiting) (al : Allowance) : Prop :=
      ∃ t, w.taken = some t ∧ t.expected ≤ (counted w).received ∧ al = t.carried
    let runs (t : State) : Prop := exec (.dataFrameArrival p hdr bytes) s = .next t
    n + 64 ≤ s.io.fp.freeCells → (p = .fp3 ↔ hdr.isSome = true) → c.suppressed = false →
    ((∀ h, hdr = some h → h.fwd = false) →
      (d.getLsbD 40 = true →
        let out (q : Port) : QFrame := if q = .fp3 then mesh 0 else f
        let copied (q : Port) (io io' : Io) : Prop :=
          (n + 64 ≤ io.fp.freeCells → put q (out q) (takeCells n io) io') ∧
          (io.fp.freeCells < n + 64 →
            io' = raise (.poolExhausted q .data n) (countFp (fun k => { k with poolFull := k.poolFull.inc q }) io))
        ∀ q₁ q₂ q₃, (p, q₁, q₂, q₃) ∈
            [(Port.fp0, Port.fp1, Port.fp2, Port.fp3), (.fp1, .fp0, .fp2, .fp3), (.fp2, .fp0, .fp1, .fp3),
             (.fp3, .fp0, .fp1, .fp2)] →
          ∃ a b e, put q₁ (out q₁) x.io a ∧ copied q₂ a b ∧ copied q₃ b e ∧ go e x.hu) ∧
      (d.getLsbD 40 = false →
        let unknown : Prop :=
          (s.io.fp.gateway = true → p = .fp0 → goes .fp3 (mesh 0)) ∧
          (s.io.fp.gateway = true → p ≠ .fp0 → goes .fp0 f) ∧
          (s.io.fp.gateway = false → p = .fp3 → goes .fp0 f) ∧
          (s.io.fp.gateway = false → p ≠ .fp3 → s.io.fp.gatewayId = own → noRoute) ∧
          (s.io.fp.gateway = false → p ≠ .fp3 → s.io.fp.gatewayId ≠ own → goes .fp3 (mesh s.io.fp.gatewayId))
        (s.entry d = none → unknown) ∧
        ∀ e, s.entry d = some e →
          let gone : Prop := e.st.served = false
          let back : Prop := ∃ m q h, e.st = .away (some m) q ∧ m ≠ own ∧ hdr = some h ∧ h.src = m
          let free : Prop := s.departOf d = none ∨
            ∃ i k cut l o₁ o₂ sn, s.departOf d = some (i, k) ∧ k.st = .depart true cut l o₁ o₂ sn
          (∀ r a, e.st = .serving r a → goes (radioPort r) f) ∧
          (∀ r ch i k w, e.st = .arriving r ch → s.arriveOf d = some (i, k) → k.st = .arrive w → holds i k w .arrive) ∧
          (back → noRoute) ∧
          (∀ i k w pr ch cut o₁ o₂, gone → ¬ back → s.departOf d = some (i, k) → k.st = .await w pr ch cut o₁ o₂ →
            holds i k w fun v => .await v pr ch cut o₁ o₂) ∧
          (∀ i k y cut l o₁ o₂ sn, gone → ¬ back → s.departOf d = some (i, k) → s.hu.slots[i]? = some y →
            k.st = .depart false cut l o₁ o₂ sn → o₂ < 65535 →
            forwards i k y (.depart false cut l o₁ (o₂ + 1) sn) k.st) ∧
          (∀ a, e.st = .detached a → free → noRoute) ∧
          (∀ m q, e.st = .away (some m) q → m ≠ own → ¬ back → free → goes .fp3 (mesh m)) ∧
          (∀ q, e.st = .away none q → free → unknown))) ∧
    (∀ h, hdr = some h → h.fwd = true →
      let late : Prop := go (freeCells n x.io)
        { x.hu with counters := { x.hu.counters with lateFwd := satInc x.hu.counters.lateFwd } }
      let free : Prop := s.departOf h.station = none ∨
        ∃ i k cut l o₁ o₂ sn, s.departOf h.station = some (i, k) ∧ k.st = .depart true cut l o₁ o₂ sn
      let st := (s.entry h.station).map (·.st)
      (∀ i k w r ch, s.arriveOf h.station = some (i, k) → k.st = .arrive w → waits w → st = some (.arriving (some r) ch) →
        ∃ io, put (radioPort r) f x.io io ∧ go io (setCtx i { k with st := .arrive (counted w) } x.hu)) ∧
      (∀ i k w ch, s.arriveOf h.station = some (i, k) → k.st = .arrive w → waits w → st = some (.arriving none ch) →
        go (freeCells n x.io) (setCtx i { k with st := .arrive (counted w), drops := min (k.drops + 1) 65535 }
          (dropped x.hu))) ∧
      (∀ i y k w r ch al, s.arriveOf h.station = some (i, k) → s.hu.slots[i]? = some y → k.st = .arrive w → met w al →
        st = some (.arriving (some r) ch) →
        ∃ io t, put (radioPort r) f x.io io ∧ runs t ∧ ArrivalCompleted i y k (counted w) (some al)
          { x with io, hu := setCtx i { k with st := .arrive (counted w) } x.hu } t) ∧
      (∀ i y k w ch al, s.arriveOf h.station = some (i, k) → s.hu.slots[i]? = some y → k.st = .arrive w → met w al →
        st = some (.arriving none ch) →
        let k' : Context := { k with st := .arrive (counted w), drops := min (k.drops + 1) 65535 }
        ∃ t, runs t ∧ ArrivalCompleted i y k' (counted w) (some al)
          { x with io := freeCells n x.io, hu := setCtx i k' (dropped x.hu) } t) ∧
      (s.arriveOf h.station = none →
        (∀ i k y w pr ch cut o₁ o₂ al, s.departOf h.station = some (i, k) → s.hu.slots[i]? = some y →
          k.st = .await w pr ch cut o₁ o₂ → met w al → o₂ < 65535 →
          let g := marked i k y
          let ends (io : Io) (o : Nat) : Prop := ∃ t, runs t ∧
            WaitEnded i y k (counted w) pr ch cut o₁ o
              { x with io, hu := setCtx i { k with st := .await (counted w) pr ch cut o₁ o } x.hu } t ∧
            t.hu.counters.contextsLost = s.hu.counters.contextsLost
          (fits .fp3 g x.io → ends (queued .fp3 g x.io) (o₂ + 1)) ∧ (¬ fits .fp3 g x.io → ends (refused .fp3 g x.io) o₂)) ∧
        (∀ i k y w pr ch cut o₁ o₂, s.departOf h.station = some (i, k) → s.hu.slots[i]? = some y →
          k.st = .await w pr ch cut o₁ o₂ → waits w → o₂ < 65535 →
          forwards i k y (.await (counted w) pr ch cut o₁ (o₂ + 1)) (.await (counted w) pr ch cut o₁ o₂)) ∧
        (∀ i k y cut l o₁ o₂ sn, s.departOf h.station = some (i, k) → s.hu.slots[i]? = some y →
          k.st = .depart false cut l o₁ o₂ sn → o₂ < 65535 →
          forwards i k y (.depart false cut l o₁ (o₂ + 1) sn) k.st) ∧
        (∀ m q, free → st = some (.away (some m) q) → m ≠ own → m ≠ h.src →
          let v : MeshHdr :=
            { cls := c.cls, src := own, dst := m
              station := if d.getLsbD 40 = false ∧ (s.entry d).isSome then d else h.station }
          goes .fp3 { f with hdr := some v }) ∧
        (free → (∀ m q, st = some (.away (some m) q) → m = own ∨ m = h.src) → late)))

/-- A beacon at the Time Base (R9 to R15, R17 to R19, R23, R26): the ones ignored or counted as a conflict; the offset,
the followed root and the lock rules of the ones taken; the rate correction and the calendar record at count 0; the quiet
mark; what a yielding root discards. That a yield of a root invalidates the rate anchor is log 15 (DEDUCED), that it
discards the unsent beacon log 35 (DEDUCED). That the mark a beacon leaves is the new one, or the old one unchanged, also
where the beacon's own step moves the node into another cycle, is the model's choice (log 36, DESIGN CHOICE). -/
def Obligations.BeaconsMoveTheTimeBase : Prop :=
  ∀ (b : Beacon) (ltCap : Time) (s : State), 1 ≤ s.io.fp.freeCells →
    let go := exec (.beaconReceived b ltCap) s
    let took := tookFrame .fp3 1 s.io
    let counted (f : SyncCounters → SyncCounters) : State :=
      { s with io := took, tb := { s.tb with counters := f s.tb.counters } }
    let cycle := 2 ^ s.tb.params.exponent
    let bad : Prop := b.prio = 7 ∨ b.exp < 10 ∨ 16 < b.exp ∨ b.exp ≠ s.tb.params.exponent ∨ b.mtb.toNat % cycle ≠ 0
    let better (n p : Nat) : Prop := b.prio < p ∨ (b.prio = p ∧ b.root < n)
    let delay := (s.io.es.peer b.root).delayOf
    let offset := b.mtb + BitVec.ofNat 48 delay - ltCap
    let e := ((ltCap + s.tb.offset) - (b.mtb + BitVec.ofNat 48 delay)).toInt
    let step : Prop := b.disc = true ∨ 1000000 < e.natAbs
    let zero : Prop := b.mtb.toNat / cycle % 64 = 0
    let mark := if b.quiet then some (b.mtb + BitVec.ofNat 48 cycle) else s.tb.quietMark
    let accepted := { s.tb.counters with beaconsAccepted := satInc s.tb.counters.beaconsAccepted }
    let record (old : Calendar) : Calendar := match b.cal with
      | some c =>
        if b.mtb.toNat / cycle % 64 = 0 ∧ c.weekSec ≤ 604799 ∧ (c.gen ≠ old.gen ∨ old.valid = false ∨ old.unmatched = true) then
          { anchor := c.anchor, weekSec := c.weekSec, gen := c.gen, valid := true, unmatched := false }
        else old
      | none => old
    let joined : TimeBase :=
      { s.tb with
        offset := offset, beaconWatch := 0, sync := .track, consec := 0
        rateAnchor := if b.mtb.toNat / cycle % 64 = 0 then some (ltCap, b.mtb) else none
        followed := some { node := b.root, prio := b.prio }, cal := record { s.tb.cal with unmatched := true }
        quietMark := mark, counters := accepted }
    let stays (t : State) : Prop :=
      t.tb.offset = offset ∧ t.tb.beaconWatch = 0 ∧ t.tb.quietMark = mark ∧
        t.tb.followed = some { node := b.root, prio := b.prio } ∧
        t.tb.counters.beaconsAccepted = accepted.beaconsAccepted ∧ t.tb.cal = record s.tb.cal ∧
        (t.tb.cal ≠ s.tb.cal → t.se.ts = t.mt) ∧ (step → t.se.ts = t.mt ∧ (t.io.cu.events.get .sync).pending = true) ∧
        (¬ zero → t.tb.n = s.tb.n ∧
          t.tb.rateAnchor = if b.disc ∨ 1000000 < e.natAbs then none else s.tb.rateAnchor) ∧
        (zero → t.tb.rateAnchor = some (ltCap, b.mtb)) ∧
        (zero → (s.tb.rateAnchor = none ∨ step) → t.tb.n = s.tb.n) ∧
        (∀ la ma, zero → ¬ step → s.tb.rateAnchor = some (la, ma) →
          let dL := (ltCap - la).toNat
          let dM := (b.mtb - ma).toNat
          let raw := (s.tb.n * dL + dM / 2) / dM
          let low := s.tb.nBase - s.tb.nBase / 512
          let high := s.tb.nBase + s.tb.nBase / 512
          ((2 ^ 16 ≤ dM ∧ dM ≤ 2 ^ 24) → t.tb.n = max low (min high raw) ∧
            t.tb.counters.rateUpdates = satInc s.tb.counters.rateUpdates ∧
            ((raw < low ∨ high < raw) → (t.io.cu.events.get .sync).pending = true)) ∧
          (¬ (2 ^ 16 ≤ dM ∧ dM ≤ 2 ^ 24) → t.tb.n = s.tb.n ∧
            t.tb.counters.rateSkipped = satInc s.tb.counters.rateSkipped))
    (b.root = s.io.fp.nodeId → go = .next (counted fun c => { c with rootConflict := satInc c.rootConflict })) ∧
    (b.root ≠ s.io.fp.nodeId →
      (bad → go = .next (counted fun c => { c with beaconsIgnored := satInc c.beaconsIgnored })) ∧
      (¬ bad →
        (s.tb.sync = .free → go = .next (counted fun c => { c with beaconsIgnored := satInc c.beaconsIgnored })) ∧
        (s.tb.sync = .root → ¬ better s.io.fp.nodeId s.tb.params.priority →
          go = .next (counted fun c => { c with rootConflict := satInc c.rootConflict })) ∧
        (∀ r, (s.tb.sync = .track ∨ s.tb.sync = .locked) → s.tb.followed = some r → r.node ≠ b.root →
          ¬ better r.node r.prio → go = .next (counted fun c => { c with beaconsIgnored := satInc c.beaconsIgnored })) ∧
        (s.tb.sync = .listen →
          ∃ t, go = .next t ∧ t.tb = joined ∧ (t.io.cu.events.get .sync).pending = true ∧
            (step → t.se.ts = t.mt)) ∧
        (s.tb.sync = .root → better s.io.fp.nodeId s.tb.params.priority →
          ∃ t, go = .next t ∧ t.tb = { joined with preset := none, quietList := [] } ∧ t.io.es.beaconPos = none ∧
            (t.io.cu.events.get .sync).pending = true ∧ (step → t.se.ts = t.mt)) ∧
        (∀ r, (s.tb.sync = .track ∨ s.tb.sync = .locked) → s.tb.followed = some r → r.node ≠ b.root →
          better r.node r.prio →
          ∃ t, go = .next t ∧ t.tb = joined ∧ (t.io.cu.events.get .sync).pending = true ∧ (step → t.se.ts = t.mt)) ∧
        (∀ r, s.tb.sync = .holdover → s.tb.followed = some r → r.node ≠ b.root →
          ∃ t, go = .next t ∧ t.tb = joined ∧ (step → t.se.ts = t.mt)) ∧
        (∀ r, s.tb.sync = .holdover → s.tb.followed = some r → r.node = b.root →
          ∃ t, go = .next t ∧ t.tb.sync = .track ∧ t.tb.consec = 0 ∧ stays t) ∧
        (∀ r, (s.tb.sync = .track ∨ s.tb.sync = .locked) → s.tb.followed = some r → r.node = b.root →
          ∃ t, go = .next t ∧ stays t ∧
            (b.disc = true → t.tb.sync = s.tb.sync ∧ t.tb.consec = s.tb.consec) ∧
            (b.disc = false → s.tb.params.lockWindow < e.natAbs → t.tb.sync = .track ∧ t.tb.consec = 0) ∧
            (b.disc = false → s.tb.params.lockWindow < e.natAbs → s.tb.sync = .locked →
              (t.io.cu.events.get .sync).pending = true) ∧
            (b.disc = false → e.natAbs ≤ s.tb.params.lockWindow → s.tb.sync = .locked → t.tb.sync = .locked) ∧
            (b.disc = false → e.natAbs ≤ s.tb.params.lockWindow → s.tb.sync = .track →
              t.tb.sync = (if s.tb.params.lockCount ≤ s.tb.consec + 1 then .locked else .track) ∧
                t.tb.consec = min (s.tb.consec + 1) 255))))

/-- CLAIMs, RELEASEs and HEARING reports (R97, R110, R111, R113 to R115, R120, R121): the ones ignored, late or second;
the AWAY entry a claim makes or changes; the departure of a station SERVING or DETACHED here and the conversion of an
arrival, with the hints of R63; the RELEASE stored, the arrival it completes, whose hints go to the Classifier, and the
predecessor's wait it ends, or late where the station has neither an ARRIVE context nor a wait; the hearing record, of
several unused ones the lowest-numbered (log 38, the model's choice), of several of one age too. Two hints of one key at
the front of a hint list both stay (log 55, the model's choice). -/
def Obligations.StationMessagesMoveEntriesAndContexts : Prop :=
  (∀ (c : Claim) (s : State), 1 ≤ s.io.fp.freeCells → StationsDistinct s →
    let go := exec (.claimReceived c) s
    let took := tookFrame .fp3 1 s.io
    let ignored : State :=
      { s with io := took, hu := { s.hu with counters := { s.hu.counters with claimsIgnored := satInc s.hu.counters.claimsIgnored } } }
    let server (n : Option Nat) : Option Nat := if n = none ∧ c.prev ≠ 0 ∧ c.prev ≠ s.io.fp.nodeId then some c.prev else n
    let now : Prop := 0 ≤ (s.mt - c.cutover).toInt
    let away (n : Option Nat) (st : StState) : Prop :=
      (now → st = .away (some c.claimant) none) ∧ (¬ now → st = .away (server n) (some (c.claimant, c.cutover)))
    (c.claimant = s.io.fp.nodeId → go = .next ignored) ∧
    (c.claimant ≠ s.io.fp.nodeId →
      (s.entry c.station = none → (∀ o ∈ s.su.table, o.isSome = true) → go = .next ignored) ∧
      (∀ i, s.entry c.station = none → s.su.table[i]? = some none → (∀ k, k < i → ∃ e, s.su.table[k]? = some (some e)) →
        ∃ t st, go = .next t ∧ away none st ∧ t.hu.slots = s.hu.slots ∧
          t.su.table = s.su.table.set i (some
            { addr := c.station, st := st, profile := s.se.active.member c.station, since := s.mt })) ∧
      (∀ (j : Nat) (e : Station) n p, s.su.table[j]? = some (some e) → e.addr = c.station → e.st = .away n p →
        ∃ t st, go = .next t ∧ away n st ∧ t.su.table = s.su.table.set j (some { e with st := st }) ∧ t.cl = s.cl ∧
          t.hu.slots = s.hu.slots ∧ t.hu.counters.claimsReceived = satInc s.hu.counters.claimsReceived) ∧
      (∀ (j i : Nat) (e : Station) (x : CtxSlot) (a : Allowance), s.su.table[j]? = some (some e) → e.addr = c.station →
        ((∃ r, e.st = .serving r a) ∨ e.st = .detached a) →
        (∀ y ∈ s.hu.slots, ∀ k, y.ctx = some k → k.station ≠ c.station) →
        s.hu.slots[i]? = some x → x.ctx = none → (∀ k y, k < i → s.hu.slots[k]? = some y → y.ctx ≠ none) →
        ∃ t, go = .next t ∧
          t.su.table = s.su.table.set j (some
            { e with st := .away (some c.claimant) none, eff := none, dwell := 0, since := s.mt }) ∧
          t.hu.slots = s.hu.slots.set i { gen := (x.gen + 1) % 256, ctx := some {
            station := c.station, peer := c.claimant, hints := s.hintsOf c.station
            st := .depart false c.cutover s.hu.params.linger 0 0 (some a) } } ∧
          t.hu.counters.departures = satInc s.hu.counters.departures ∧
          (∀ f ∈ t.cl.flows.filterMap id, f.key.station = c.station → f.hint = none ∧ f.effClass = f.ruleClass)) ∧
      (∀ (j i : Nat) (e : Station) (x : CtxSlot) (k : Context) (w : Waiting) r charge,
        s.su.table[j]? = some (some e) → e.addr = c.station → e.st = .arriving r charge →
        s.hu.slots[i]? = some x → x.ctx = some k → k.station = c.station → k.st = .arrive w →
        (∀ (n : Nat) (y : CtxSlot) (d : Context), n ≠ i → s.hu.slots[n]? = some y → y.ctx = some d → d.station ≠ c.station) →
        ∃ t, go = .next t ∧
          t.su.table = s.su.table.set j (some
            { e with st := .away (some c.claimant) none, eff := none, dwell := 0, since := s.mt }) ∧
          t.hu.slots = s.hu.slots.set i { x with ctx := some { k with
            peer := c.claimant
            hints := (k.hints ++ (s.hintsOf c.station).filter fun h => !k.hints.contains h).take 8
            st := .await w k.peer charge c.cutover 0 0 } } ∧
          (∀ f ∈ t.cl.flows.filterMap id, f.key.station = c.station → f.hint = none ∧ f.effClass = f.ruleClass) ∧
          t.hu.counters.conversions = satInc s.hu.counters.conversions))) ∧
  (∀ (r : Release) (s : State), r.hints.length ≤ 8 → 1 ≤ s.io.fp.freeCells → StationsDistinct s →
    let go := exec (.releaseReceived r) s
    let took := tookFrame .fp3 1 s.io
    let counted (f : HuCounters → HuCounters) : State := { s with io := took, hu := { s.hu with counters := f s.hu.counters } }
    ((∀ y ∈ s.hu.slots, ∀ k, y.ctx = some k → k.station = r.station →
        ∃ fl cut l n o sn, k.st = .depart fl cut l n o sn) →
      go = .next (counted fun c => { c with lateRelease := satInc c.lateRelease })) ∧
    (∀ (i : Nat) (x : CtxSlot) (k : Context) (w : Waiting), s.hu.slots[i]? = some x → x.ctx = some k →
      s.arriveOf r.station = some (i, k) → k.st = .arrive w →
      let same : Bool := match s.entry r.station with
        | some e => e.profile = r.profile
        | none => false
      let carried : Allowance := { r.allow with known := r.allow.known && same }
      (w.taken ≠ none → go = .next (counted fun c => { c with secondRelease := satInc c.secondRelease })) ∧
      (w.taken = none → w.received < r.forwarded →
        let k' : Context := { k with
          peer := r.sender, hints := r.hints, st := .arrive { w with taken := some { expected := r.forwarded, carried } } }
        go = .next { s with
          io := took
          hu := { s.hu with
            slots := s.hu.slots.set i { x with ctx := some k' }
            counters := { s.hu.counters with releasesReceived := satInc s.hu.counters.releasesReceived } } }) ∧
      (w.taken = none → r.forwarded ≤ w.received →
        ∃ t, go = .next t ∧ ArrivalCompleted i x { k with peer := r.sender, hints := r.hints } w (some carried) s t ∧
          t.hu.counters.releasesReceived = satInc s.hu.counters.releasesReceived)) ∧
    (∀ (i : Nat) (x : CtxSlot) (k : Context) (w : Waiting) p ch cut n o, s.hu.slots[i]? = some x → x.ctx = some k →
      s.arriveOf r.station = none → s.departOf r.station = some (i, k) → k.st = .await w p ch cut n o →
      let same : Bool := match s.entry r.station with
        | some e => e.profile = r.profile
        | none => false
      let carried : Allowance := { r.allow with known := r.allow.known && same }
      let w' : Waiting := { w with taken := some { expected := r.forwarded, carried } }
      let k' : Context := { k with
        hints := (r.hints ++ k.hints.filter fun h => !r.hints.contains h).take 8, st := .await w' p ch cut n o }
      (w.taken ≠ none → go = .next (counted fun c => { c with secondRelease := satInc c.secondRelease })) ∧
      (w.taken = none → w.received < r.forwarded →
        go = .next { s with
          io := took
          hu := { s.hu with
            slots := s.hu.slots.set i { x with ctx := some k' }
            counters := { s.hu.counters with releasesReceived := satInc s.hu.counters.releasesReceived } } }) ∧
      (w.taken = none → r.forwarded ≤ w.received →
        ∃ t, go = .next t ∧ WaitEnded i x k' w' p ch cut n o s t ∧
          t.hu.counters.contextsLost = s.hu.counters.contextsLost ∧
          t.hu.counters.releasesReceived = satInc s.hu.counters.releasesReceived))) ∧
  (∀ (h : HearingMsg) (s : State), 1 ≤ s.io.fp.freeCells → StationsDistinct s →
    let go := exec (.hearingReceived h) s
    let ignored : State :=
      { s with
        io := tookFrame .fp3 1 s.io
        su := { s.su with counters := { s.su.counters with hearingsIgnored := satInc s.su.counters.hearingsIgnored } } }
    (s.entry h.station = none → go = .next ignored) ∧
    (∀ (j : Nat) (e : Station), s.su.table[j]? = some (some e) → e.addr = h.station →
      ((e.st.served = false ∨ h.reporter = s.io.fp.nodeId) → go = .next ignored) ∧
      (e.st.served = true → h.reporter ≠ s.io.fp.nodeId → e.hearings.length = 4 →
        ∃ k, k < 4 ∧ (∀ m, m < k → (∀ y : Hearing, some y ∈ e.hearings → y.node ≠ h.reporter) → e.hearings[m]? ≠ some none) ∧
          (let e' : Station := { e with hearings := e.hearings.set k (some
             { node := h.reporter, level := max (-1600) (min (-160) h.level), mt := s.mt }) }
           go = .next { s with
             io := tookFrame .fp3 1 s.io
             su := { s.su with
               table := s.su.table.set j (some e')
               counters := { s.su.counters with hearingsReceived := satInc s.su.counters.hearingsReceived } } }) ∧
          ((∃ y : Hearing, some y ∈ e.hearings ∧ y.node = h.reporter) →
            ∃ y : Hearing, e.hearings[k]? = some (some y) ∧ y.node = h.reporter) ∧
          ((∀ y : Hearing, some y ∈ e.hearings → y.node ≠ h.reporter) → none ∈ e.hearings → e.hearings[k]? = some none) ∧
          ((∀ y : Hearing, some y ∈ e.hearings → y.node ≠ h.reporter) → none ∉ e.hearings →
            ∃ y : Hearing, e.hearings[k]? = some (some y) ∧
              ∀ (m : Nat) (z : Hearing), e.hearings[m]? = some (some z) →
                (s.mt - z.mt).toInt < (s.mt - y.mt).toInt ∨ ((s.mt - z.mt).toInt = (s.mt - y.mt).toInt ∧ k ≤ m)))))

/-- The hints of a handoff (R62 to R64): those a node forms for a station, its flows of effective class 0 by score and slot,
at most 8; what each hint of a RELEASE does to the flow with its key, or to an empty slot, or for want of one; the hints of
a list taken in order; and the game activity of a station and of the node. A hint is taken with the T_p in use since the
latest period end (log 33, DEDUCED), and a flow created from one raises GAME_STARTED as well (log 20, DEDUCED). -/
def Obligations.HintsAreFormedAndTaken : Prop :=
  (∀ (s : State) (a : Addr), (∀ f, some f ∈ s.cl.flows → f.q ≤ 7) →
    ∃ order : List (Nat × Flow),
      (∀ i f, (i, f) ∈ order ↔ s.cl.flows[i]? = some (some f) ∧ f.key.station = a ∧ f.effClass = 0) ∧
      order.Pairwise (fun x y => y.2.q < x.2.q ∨ (y.2.q = x.2.q ∧ x.1 < y.1)) ∧
      s.hintsOf a = (order.take 8).map fun x =>
        { proto := x.2.key.proto, rPort := x.2.key.rPort, lPort := x.2.key.lPort, rAddr := x.2.key.rAddr }) ∧
  (∀ (s : State) (a : Addr) (h : Hint),
    let key : FlowKey := { station := a, proto := h.proto, rPort := h.rPort, lPort := h.lPort, rAddr := h.rAddr }
    let tp := s.cl.inUse.tp
    let c := s.cl.counters
    let transit : Prop := ∃ e, s.entry a = some e ∧ e.st.isAway = true
    let unknown : Prop := ∀ f, some f ∈ s.cl.flows → f.key ≠ key
    let merged : ClCounters := { c with hintsMerged := satInc c.hintsMerged }
    (∀ i f, s.cl.flows[i]? = some (some f) → f.key = key →
      (∀ j g, j < i → s.cl.flows[j]? = some (some g) → g.key ≠ key) →
      (f.pinned = true → takeHint a s h = { s with cl := { s.cl with counters := merged } }) ∧
      (∀ cls, f.pinned = false → (transit → cls = f.hint.getD f.ruleClass) → (¬ transit → cls = 0) →
        let r := if cls = f.clsClass then (f.effClass, f.suppressed) else effUnder s.se (s.entry a) cls f.essential
        let g : Flow :=
          { f with q := max f.q tp, detected := true, clsClass := cls, effClass := r.1, suppressed := r.2 }
        let u : State := { s with cl := { s.cl with flows := s.cl.flows.set i (some g), counters := merged } }
        (f.detected = true → takeHint a s h = u) ∧
        (f.detected = false → takeHint a s h = { u with io := raise (.gameStarted key i (max f.q tp)) s.io }))) ∧
    (∀ i cls, unknown → s.cl.flows[i]? = some none → (∀ j, j < i → ∃ g, s.cl.flows[j]? = some (some g)) →
      (transit → cls = 2) → (¬ transit → cls = 0) →
      let r := effUnder s.se (s.entry a) cls false
      let g : Flow :=
        { key, ruleClass := 2, essential := false, pinned := false, rematch := true, q := tp, detected := true, hint := none
          clsClass := cls, effClass := r.1, suppressed := r.2, packets := 0, bytes := 0, lastSeen := s.mt, cur := false
          prev := false, idle := 0 }
      takeHint a s h = { s with
        cl := { s.cl with flows := s.cl.flows.set i (some g), counters := { c with hintFlows := satInc c.hintFlows } }
        io := raise (.gameStarted key i tp) s.io }) ∧
    (unknown → (∀ o ∈ s.cl.flows, o.isSome = true) →
      takeHint a s h = { s with
        cl := { s.cl with counters := { c with hintsRefused := satInc c.hintsRefused } }
        io := raise (.hintRefused key) s.io })) ∧
  (∀ (s : State) (a : Addr),
    takeHints a [] s = s ∧ ∀ h hs, takeHints a (h :: hs) s = takeHints a hs (takeHint a s h)) ∧
  (∀ (s : State) (a : Addr),
    (s.gameActive a = true ↔ (∃ e, s.entry a = some e) ∧ ∃ f, some f ∈ s.cl.flows ∧ f.key.station = a ∧ f.effClass = 0 ∧
      (f.cur = true ∨ f.prev = true)) ∧
    (s.nodeGameActive = true ↔ ∃ e, some e ∈ s.su.table ∧ e.st.served = true ∧ s.gameActive e.addr = true))

/-- Control frames (R33, R34, R38 to R40, R173, R174): a request for this node enters the control queue with the verdict
of its port's admission, or overflows it; a request for another node is relayed or refused; a permitted read for all nodes
is handed to the Control Unit first, its QUEUE_OVERFLOW raised before the relayed frame is placed (log 51, the model's
choice); a response or notice goes home, its body unread (log 58, the model's choice), by this node's registration or is
dropped; on FP3 the destination is tested before the direction byte and the length (log 57, the model's choice); a frame
the pool has no cells for, and a relayed or returning frame that finds its management queue full, is dropped. On FP0 to
FP2 a frame has a link header of 14 bytes (log 7, PRESUMED) before its mesh header. -/
def Obligations.ControlFramesAreQueuedOrRelayed : Prop :=
  (∀ (p : Port) (nodes : NodePair) (payload : List Byte) (s : State),
    let n := (payload.length + (if p = .fp3 then 18 else 32) + 255) / 256
    s.io.fp.freeCells < n → exec (.controlRequestArrival p nodes payload) s = .next (s.onIo fun io =>
      raise (.poolExhausted p .control n) (countFp (fun c => { c with poolFull := c.poolFull.inc p }) io))) ∧
  (∀ (notice : Bool) (nodes : NodePair) (payload : List Byte) (s : State),
    let n := (payload.length + 18 + 255) / 256
    s.io.fp.freeCells < n → exec (.responseNoticeRelay notice nodes payload) s = .next (s.onIo fun io =>
      raise (.poolExhausted .fp3 (if notice then .notice else .control) n)
        (countFp (fun c => { c with poolFull := c.poolFull.inc .fp3 }) io))) ∧
  (∀ (p : Port) (nodes : NodePair) (payload : List Byte) (s : State),
    let go := exec (.controlRequestArrival p nodes payload) s
    let n := (payload.length + (if p = .fp3 then 18 else 32) + 255) / 256
    n ≤ s.io.fp.freeCells →
    let took := tookFrame p n s.io
    let mine : Prop := nodes.dst = s.io.fp.nodeId ∨ nodes.dst = 0
    let request : Prop := 5 ≤ payload.length ∧ field payload 0 1 = 1
    let code := field payload 3 2
    let read : Prop := code = 1 ∨ code = 2 ∨ code = 4 ∨ code = 32
    let may : Prop := s.io.cu.admission.get p = .manage ∨ (s.io.cu.admission.get p = .view ∧ read)
    let item (denied : Bool) : CtlReq := { denied, port := p, dest := nodes.dst, payload }
    let queued (denied : Bool) (io : Io) : Io := io.onCu fun c => { c with queue := c.queue ++ [item denied] }
    let relayed (io : Io) : Io := io.onPort .fp3 fun e =>
      { e with
        mgmt := e.mgmt ++ [{ hdr := some { src := s.io.fp.nodeId, dst := nodes.dst }, content := .control payload, cells := n }]
        choiceDue := true }
    let kept := countFp (fun c => { c with framesIn := c.framesIn.inc p }) (takeCells n s.io)
    let lost (io : Io) : Io :=
      raise (.mgmtDrop .fp3 .control) (countEs .fp3 (fun c => { c with mgmtFull := satInc c.mgmtFull }) (freeCells n io))
    (p = .fp3 → ¬ mine →
      go = .next { s with io := countFp (fun c => { c with notForNode := satInc c.notForNode }) took }) ∧
    ((p ≠ .fp3 ∨ mine) → 5 ≤ payload.length → field payload 0 1 ≠ 1 → field payload 0 1 ≠ 2 →
      go = .next { s with io := countFp (fun c => { c with malformedHeader := c.malformedHeader.inc p }) took }) ∧
    (p ≠ .fp3 → 5 ≤ payload.length → field payload 0 1 = 2 →
      go = .next { s with io := countFp (fun c => { c with wrongPortKind := c.wrongPortKind.inc p }) took }) ∧
    ((p ≠ .fp3 ∨ mine) → payload.length < 5 →
      go = .next { s with io := countCu (fun c => { c with controlMalformed := satInc c.controlMalformed }) took }) ∧
    (request → nodes.dst = s.io.fp.nodeId →
      (s.io.cu.queue.length < 8 → may → go = .next { s with io := queued false took }) ∧
      (s.io.cu.queue.length < 8 → ¬ may → go = .next { s with io := queued true took }) ∧
      (8 ≤ s.io.cu.queue.length → go = .next (s.onIo fun _ => raise (.queueOverflow p (field payload 1 2))
        (countCu (fun c => { c with controlOverflow := satInc c.controlOverflow }) took)))) ∧
    (request → p = .fp3 → nodes.dst = 0 → s.io.cu.queue.length < 8 →
      (may → go = .next { s with io := queued false took }) ∧ (¬ may → go = .next { s with io := queued true took })) ∧
    (request → p ≠ .fp3 → nodes.dst = 0 → s.io.fp.nodeId ≠ 0 → s.io.cu.queue.length < 8 →
      (read → may → (s.io.port .fp3).mgmt.length < 16 → go = .next { s with io := relayed (queued false kept) }) ∧
      (read → may → 16 ≤ (s.io.port .fp3).mgmt.length → go = .next { s with io := lost (queued false kept) }) ∧
      (¬ may → go = .next { s with io := queued true took }) ∧
      (¬ read → may → go = .next { s with io := queued false took })) ∧
    (request → p ≠ .fp3 → nodes.dst ≠ 0 → nodes.dst ≠ s.io.fp.nodeId →
      (may → (s.io.port .fp3).mgmt.length < 16 → go = .next { s with io := relayed kept }) ∧
      (may → 16 ≤ (s.io.port .fp3).mgmt.length → go = .next { s with io := lost kept }) ∧
      (¬ may → s.io.cu.queue.length < 8 → go = .next { s with io := queued true took })) ∧
    (request → 8 ≤ s.io.cu.queue.length →
      let overflowed (io : Io) : Io := raise (.queueOverflow p (field payload 1 2))
        (countCu (fun c => { c with controlOverflow := satInc c.controlOverflow }) io)
      let place := ((overflowed kept).port .fp3).mgmt.length < 16
      (p = .fp3 → nodes.dst = 0 → go = .next { s with io := overflowed took }) ∧
      (p ≠ .fp3 → nodes.dst ≠ s.io.fp.nodeId →
        (¬ may → go = .next { s with io := overflowed took }) ∧
        (nodes.dst = 0 → ¬ read → go = .next { s with io := overflowed took }) ∧
        (nodes.dst = 0 → read → may → place → go = .next { s with io := relayed (overflowed kept) }) ∧
        (nodes.dst = 0 → read → may → ¬ place → go = .next { s with io := lost (overflowed kept) })))) ∧
  (∀ (notice : Bool) (nodes : NodePair) (payload : List Byte) (s : State),
    let go := exec (.responseNoticeRelay notice nodes payload) s
    let n := (payload.length + 18 + 255) / 256
    n ≤ s.io.fp.freeCells → (notice = true ∨ (5 ≤ payload.length ∧ field payload 0 1 = 2)) →
    let took := tookFrame .fp3 n s.io
    let mine : Prop := nodes.dst = s.io.fp.nodeId ∨ nodes.dst = 0
    (¬ mine → go = .next { s with io := countFp (fun c => { c with notForNode := satInc c.notForNode }) took }) ∧
    (mine → (s.io.cu.reg = none ∨ ∃ r, s.io.cu.reg = some r ∧ r.node ≠ s.io.fp.nodeId) →
      go = .next { s with io := countFp (fun c => { c with noRoute := satInc c.noRoute }) took }) ∧
    (∀ r, mine → s.io.cu.reg = some r → r.node = s.io.fp.nodeId → (s.io.port r.port).mgmt.length < 16 →
      let f : QFrame :=
        { hdr := some { src := nodes.src, dst := nodes.dst }, link := some r.addr
          content := if notice then .notice payload else .control payload, cells := n }
      go = .next { s with
        io := (countFp (fun c => { c with framesIn := c.framesIn.inc .fp3 }) (takeCells n s.io)).onPort r.port fun e =>
          { e with mgmt := e.mgmt ++ [f], choiceDue := true } }) ∧
    (∀ r, mine → s.io.cu.reg = some r → r.node = s.io.fp.nodeId → 16 ≤ (s.io.port r.port).mgmt.length →
      go = .next (s.onIo fun io => raise (.mgmtDrop r.port (if notice then .notice else .control))
        (countEs r.port (fun c => { c with mgmtFull := satInc c.mgmtFull })
          (freeCells n (countFp (fun c => { c with framesIn := c.framesIn.inc .fp3 }) (takeCells n io)))))))

/-! ## The target side of a distribution -/

/-- ANNOUNCE, MAP QUERY, VERIFY QUERY, PROPOSE and CANCEL at a target (R159, R161, R162): the reply each gets and what
each does to the staging slot; the ranges of a MAP REPORT are the first 16 of the maximal runs of clear flags at or after
the starting index, in ascending order, and that index is any of 2 bytes (log 59, the model's choice). The block count of
an ANNOUNCE is clamped to 1..8,192 before it is compared or stored (log 17, DEDUCED); ARMED and DISARMED are raised before
the reply (log 47, the model's choice), and an ANNOUNCE that takes a new image frees the cells of the unbegun write queue
entries before its reply asks for cells (log 52, the model's choice). -/
def Obligations.TargetMessagesAreAnswered : Prop :=
  ∀ (src query : Nat) (s : State), 1 ≤ s.io.fp.freeCells →
    let took := tookFrame .fp3 1 s.io
    let n := !s.ie.active
    let x := s.ie.slot n
    let running : Prop := ∃ d, s.ie.dist = some d ∧ d.phase ≠ .done ∧ d.phase ≠ .aborted
    let answer (id : Nat) (b : ImageBody) (io : Io) : Io := (sendImage src { query, id, body := b } io).2
    let put (r : SlotRec) (st : SlotState) : ImageEngine := s.ie.setSlot n { x with held := some { r with st := st } }
    (∀ (img : ImageInfo) (replace : Bool),
      let go := exec (.announce src query img replace) s
      let i : ImageInfo := { img with count := max 1 (min 8192 img.count) }
      let reply (a : AnnounceResult) : State := { s with io := answer img.id (.announceReply a) took }
      let op : Option SlotOp := match s.ie.inFlight with
        | some (.erase m _) => if m = n then none else some .erase
        | _ => some .erase
      let e : ImageEngine := { s.ie with writeQ := s.ie.writeQ.filter (·.begun), pendingOp := op }
      let r : SlotRec := { img := i, map := List.replicate i.count false, received := 0, failures := 0, st := .erasing }
      let opened : State :=
        { s with
          io := answer img.id (.announceReply .ready)
            (freeCells ((s.ie.writeQ.filter fun w => !w.begun).map (·.cells)).sum took)
          ie := e.setSlot n { load := (x.load + 1) % 256, held := some r } }
      (∀ y c, x.held = some y → y.st = .armed c → go = .next (reply .refused)) ∧
      ((∀ y c, x.held = some y → y.st ≠ .armed c) → running → go = .next (reply .busy)) ∧
      (¬ running → (x.held = none ∨ ∃ y, x.held = some y ∧ y.st = .failed) → go = .next opened) ∧
      (∀ y, ¬ running → x.held = some y → y.st ≠ .failed → (∀ c, y.st ≠ .armed c) →
        (y.img = i → go = .next (reply .ready)) ∧
        (y.img ≠ i → replace = true → go = .next opened) ∧
        (y.img ≠ i → replace = false → go = .next (reply .busy)))) ∧
    (∀ id start, ∃ m : MapContent,
      exec (.mapQuery src query id start) s = .next { s with io := answer id (.mapReport m) took } ∧
      let none_ : MapContent := { status := .none, more := false, ranges := [] }
      (x.held = none → m = none_) ∧
      (∀ y, x.held = some y →
        (y.img.id ≠ id → m = none_) ∧
        ((y.st = .failed ∨ ∃ c, y.st = .switched c) → m = none_) ∧
        (y.img.id = id → (y.st = .complete ∨ y.st = .verified ∨ (∃ w, y.st = .verifying w) ∨ ∃ c, y.st = .armed c) →
          m = { status := .complete, more := false, ranges := [] }) ∧
        (y.img.id = id → (y.st = .erasing ∨ y.st = .receiving) →
          m.status = .receiving ∧ m.ranges.length ≤ 16 ∧ (m.more = true → m.ranges.length = 16) ∧
          m.ranges.Pairwise (fun g g' => g.1 + g.2 < g'.1) ∧
          (∀ g ∈ m.ranges, 0 < g.2 ∧ (g.1 = start ∨ y.map[g.1 - 1]? = some true) ∧ y.map[g.1 + g.2]? ≠ some false) ∧
          (∀ b, start ≤ b → y.map[b]? = some false → (∃ g ∈ m.ranges, g.1 ≤ b ∧ b < g.1 + g.2) ∨
            (m.more = true ∧ ∀ g ∈ m.ranges, g.1 + g.2 < b)) ∧
          (m.more = true → ∃ b, y.map[b]? = some false ∧ ∀ g ∈ m.ranges, g.1 + g.2 < b) ∧
          (∀ b, (∃ g ∈ m.ranges, g.1 ≤ b ∧ b < g.1 + g.2) → start ≤ b ∧ y.map[b]? = some false) ∧
          (m.more = false → ∀ b, start ≤ b → y.map[b]? = some false → ∃ g ∈ m.ranges, g.1 ≤ b ∧ b < g.1 + g.2)))) ∧
    (∀ id,
      let go := exec (.verifyQuery src query id) s
      let report (b : Bool) : State := { s with io := answer id (.verifyReport b) took }
      ((x.held = none ∨ ∃ y, x.held = some y ∧ y.img.id ≠ id) → go = .next (report false)) ∧
      (∀ y, x.held = some y → y.img.id = id →
        (y.st = .complete → go = .next
          { s with io := took, ie := { put y (.verifying (.node src query)) with pendingOp := some .verify } }) ∧
        (∀ w, y.st = .verifying w → go = .next { s with io := took, ie := put y (.verifying (.node src query)) }) ∧
        ((y.st = .verified ∨ ∃ c, y.st = .armed c) → go = .next (report true)) ∧
        ((y.st = .erasing ∨ y.st = .receiving ∨ y.st = .failed ∨ ∃ c, y.st = .switched c) →
          go = .next (report false)))) ∧
    (∀ id (c : Time) (force : Bool),
      let go := exec (.propose src query id c force) s
      let ready (y : SlotRec) : Prop := x.held = some y ∧ y.img.id = id ∧ (y.st = .verified ∨ ∃ c', y.st = .armed c')
      let refused : State := { s with io := answer id (.proposeReply .refused .none) took }
      let playing : Prop := ∃ (e : Station) (f : Flow), some e ∈ s.su.table ∧ e.st.served = true ∧ some f ∈ s.cl.flows ∧
        f.key.station = e.addr ∧ f.effClass = 0 ∧ (f.cur = true ∨ f.prev = true)
      let minute := s.tb.cal.minuteOf c
      let maintenance (w : SchedWindow) : Prop := w ∈ s.se.active.windows ∧ w.inUse = true ∧ w.kind = .maintenance
      let outside : Prop := s.tb.cal.valid = true ∧ (∃ w, maintenance w) ∧
        ∀ w, maintenance w → ¬ (w.start ≤ minute ∧ minute < w.stop)
      let deferred (y : SlotRec) (why : DeferReason) : State :=
        match y.st with
        | .armed c' =>
          { s with
            io := answer id (.proposeReply .defer why) (raise (.disarmed y.img.id c') took), ie := put y .verified }
        | _ => { s with io := answer id (.proposeReply .defer why) took }
      ((¬ ∃ y, ready y) → go = .next refused) ∧
      (0 ≤ (s.mt - c).toInt → go = .next refused) ∧
      (∀ y, ready y → ¬ 0 ≤ (s.mt - c).toInt →
        (force = false → playing → go = .next (deferred y .gameActive)) ∧
        (force = false → ¬ playing → outside → go = .next (deferred y .outsideMaintenance)) ∧
        ((force = true ∨ (¬ playing ∧ ¬ outside)) →
          (y.st = .verified → go = .next
            { s with io := answer id (.proposeReply .accept .none) (raise (.armed id c) took), ie := put y (.armed c) }) ∧
          (y.st ≠ .verified → go = .next
            { s with io := answer id (.proposeReply .accept .none) took, ie := put y (.armed c) })))) ∧
    (∀ id,
      let go := exec (.cancel src query id) s
      let said (b : Bool) : State := { s with io := answer id (.cancelReply b) took }
      (∀ y c, x.held = some y → y.img.id = id → y.st = .armed c → go = .next
        { s with io := answer id (.cancelReply true) (raise (.disarmed id c) took), ie := put y .verified }) ∧
      (∀ y, x.held = some y → y.img.id = id → y.st = .verified → go = .next (said true)) ∧
      ((x.held = none ∨ ∃ y, x.held = some y ∧ (y.img.id ≠ id ∨ (y.st ≠ .verified ∧ ∀ c, y.st ≠ .armed c))) →
        go = .next (said false)))

/-! ## The distributor -/

/-- The replies to a distributor (R165 to R169): late ones are counted and change nothing else; a reply to the outstanding
query of its kind moves the target at the record's cursor, and the phase goes on from the record with that target settled,
as `DistributionPhasesEnd` says, from the last target too; a quiet reply lets the pass go on. A reply of another kind than
the outstanding query is late (the model's choice, log 31); the start of a further MAP QUERY is taken modulo 65,536, and a
report with MORE and no range is the last (log 19, DEDUCED); one RECEIVING without a range, in a round that found missing
blocks before, makes the target MISSING (log 43, the model's choice). A range may name blocks beyond the image: they count
as missing and set no flag (log 59, the model's choice). -/
def Obligations.DistributorRepliesMoveTargets : Prop :=
  ∀ (query : Nat) (s : State), 1 ≤ s.io.fp.freeCells →
    let late : State :=
      { s with
        io := tookFrame .fp3 1 s.io
        ie := { s.ie with counters := { s.ie.counters with lateReplies := satInc s.ie.counters.lateReplies } } }
    let answers (i : Instr) (k : QueryKind) : Prop := match i, k with
      | .announceReply _ _, .announce | .verifyReport _ _, .verify | .proposeReply _ _ _, .propose
      | .cancelReply _ _, .cancel | .mapReport _ _, .map _ | .quietReply _ _, .quiet _ => True
      | _, _ => False
    (∀ i : Instr, ((∃ r, i = .announceReply query r) ∨ (∃ m, m.ranges.length ≤ 16 ∧ i = .mapReport query m) ∨
        (∃ b, i = .verifyReport query b) ∨ (∃ r why, i = .proposeReply query r why) ∨ (∃ b, i = .cancelReply query b) ∨
        ∃ st, i = .quietReply query st) →
      ((s.ie.dist = none ∨ (∃ d, s.ie.dist = some d ∧ d.query = none) ∨
        ∃ d q, s.ie.dist = some d ∧ d.query = some q ∧ (q.num ≠ query ∨ ¬ answers i q.kind)) → exec i s = .next late)) ∧
    (∀ (d : Dist) (q : Query) (x : Target), s.ie.dist = some d → d.query = some q → q.num = query →
      d.targets[d.cursor]? = some x →
      let moves (i : Instr) (x' : Target) : Prop := ∃ t d', exec i s = .next t ∧ t.ie.dist = some d' ∧
        d'.targets[d.cursor]? = some x' ∧ d'.img = d.img ∧ d'.targets.length = d.targets.length ∧
        t.ie.counters.lateReplies = s.ie.counters.lateReplies
      (q.kind = .announce →
        moves (.announceReply query .ready) { x with st := .ready, retries := 0 } ∧
        moves (.announceReply query .busy) { x with st := .refused, retries := 0 } ∧
        moves (.announceReply query .refused) { x with st := .refused, retries := 0 }) ∧
      (q.kind = .verify →
        moves (.verifyReport query true) { x with st := .verified, retries := 0 } ∧
        moves (.verifyReport query false) { x with st := .failed, retries := 0 }) ∧
      (q.kind = .propose →
        moves (.proposeReply query .accept .none) { x with st := .accepted, retries := 0 } ∧
        moves (.proposeReply query .refused .none) { x with st := .refused, retries := 0 } ∧
        ∀ why, moves (.proposeReply query .defer why) { x with st := .verified, retries := 0 }) ∧
      (q.kind = .cancel →
        moves (.cancelReply query true) { x with st := .verified, retries := 0 } ∧
        moves (.cancelReply query false) { x with st := .refused, retries := 0 }) ∧
      (∀ start (m : MapContent), q.kind = .map start → m.ranges.length ≤ 16 →
        let total := x.missing + (m.ranges.map (·.2)).sum
        (∀ g, m.more = true → m.ranges.getLast? = some g →
          ∃ t d' q', exec (.mapReport query m) s = .next t ∧ t.ie.dist = some d' ∧ d'.query = some q' ∧
            q'.kind = .map ((g.1 + g.2) % 65536) ∧ q'.num = (s.ie.queryNum + 1) % 65536 ∧ d'.cursor = d.cursor ∧
            d'.targets = d.targets.set d.cursor { x with missing := total, retries := 0 } ∧
            ∀ b, d'.resend[b]? = (d.resend[b]?).map fun old =>
              old || decide (∃ g ∈ m.ranges, g.1 ≤ b ∧ b < g.1 + g.2)) ∧
        (∀ (j : Nat) (y : Target), m.more = false → d.cursor < j → d.targets[j]? = some y →
          (y.st = .ready ∨ y.st = .missing) →
          moves (.mapReport query m)
            { x with
              st := (match m.status with
                | .none => .failed
                | .complete => .complete
                | .receiving => if 0 < total then .missing else .complete)
              missing := total, retries := 0 })) ∧
      (∀ root (st : Status) (j : Nat) (y : Target) (c : Time), q.kind = .quiet root → d.cutover = some c →
        d.targets[j]? = some y → y.st = .verified → (∀ k z, k < j → d.targets[k]? = some z → z.st ≠ .verified) →
        ¬ 0 ≤ (s.mt - (c - BitVec.ofNat 48 (s.ie.params.lead * 1000000 / 2))).toInt →
        ∃ t d' q', exec (.quietReply query st) s = .next t ∧ t.ie.dist = some d' ∧ d'.cursor = j ∧ d'.query = some q' ∧
          q'.kind = .propose ∧ q'.num = (s.ie.queryNum + 1) % 65536 ∧ d'.targets = d.targets ∧
          (st ≠ .ok → (t.io.cu.events.get .image).pending = true)) ∧
      let settled (x' : Target) : State :=
        { s with
          io := tookFrame .fp3 1 s.io
          ie := { s.ie with dist := some { d with query := none, targets := d.targets.set d.cursor x' } } }
      let goes (i : Instr) (t : State) : Prop := exec i s = .next t
      (q.kind = .announce →
        goes (.announceReply query .ready) (announceNext (settled { x with st := .ready, retries := 0 })) ∧
        goes (.announceReply query .busy) (announceNext (settled { x with st := .refused, retries := 0 })) ∧
        goes (.announceReply query .refused) (announceNext (settled { x with st := .refused, retries := 0 }))) ∧
      (q.kind = .verify →
        goes (.verifyReport query true) (verifyNext (settled { x with st := .verified, retries := 0 })) ∧
        goes (.verifyReport query false) (verifyNext (settled { x with st := .failed, retries := 0 }))) ∧
      (q.kind = .propose → ∀ why,
        goes (.proposeReply query .accept why) (proposeNext (settled { x with st := .accepted, retries := 0 })) ∧
        goes (.proposeReply query .refused why) (proposeNext (settled { x with st := .refused, retries := 0 })) ∧
        goes (.proposeReply query .defer why) (deferPass x.node why (settled { x with st := .verified, retries := 0 }))) ∧
      (q.kind = .cancel →
        goes (.cancelReply query true) (cancelNext (settled { x with st := .verified, retries := 0 })) ∧
        goes (.cancelReply query false) (cancelNext (settled { x with st := .refused, retries := 0 }))) ∧
      (∀ start (m : MapContent), q.kind = .map start → m.ranges.length ≤ 16 →
        let resend := d.resend.mapIdx fun b old => old || m.ranges.any fun g => g.1 ≤ b && b < g.1 + g.2
        let total := x.missing + (m.ranges.map (·.2)).sum
        let reported (st : TargetState) : State :=
          { s with
            io := tookFrame .fp3 1 s.io
            ie := { s.ie with dist := some { d with
              query := none, resend, targets := d.targets.set d.cursor { x with st, missing := total, retries := 0 } } } }
        ((m.more = false ∨ m.ranges = []) →
          goes (.mapReport query m) (pollNext (d.cursor + 1) (reported (match m.status with
            | .none => .failed
            | .complete => .complete
            | .receiving => if 0 < total then .missing else .complete)))) ∧
        (∀ g, m.more = true → m.ranges.getLast? = some g →
          goes (.mapReport query m) (sendQuery (.map ((g.1 + g.2) % 65536)) (reported x.st))))) ∧
    (∀ (d : Dist) (q : Query) root, s.ie.dist = some d → d.query = some q → q.num = query → q.kind = .quiet root →
      let asked : State :=
        { s with io := tookFrame .fp3 1 s.io, ie := { s.ie with dist := some { d with query := none } } }
      exec (.quietReply query .ok) s = .next (proposeNext asked) ∧
      ∀ st, st ≠ .ok → exec (.quietReply query st) s = .next
        (proposeNext { asked with io := raise (.quietRefused (some st)) asked.io }))

/-- The times and moments a distributor observes (R165, R166, R168, R169): a timeout of a query of every kind, with the
retry, and the loss, which leaves the target's retries used as they are, and what the phase goes on with, the end of a
deferral interval, the cutover of an ARMED distribution, the last block frame gone. What a phase goes on with is
`DistributionPhasesEnd`'s. One whose condition does not hold changes nothing (log 6, DEDUCED); the missing count is
cleared as a target's round of map queries begins (log 19, DEDUCED); a retry is judged by the parameter as it stands at
the timeout (log 43, the model's choice), and a PROPOSE passes the cutoff test at a retry too (log 18, DEDUCED), which
tells TARGET_LOST before CANCEL_LOST; both come before the next query is placed (log 52, the model's choice). A query sent
again is outstanding also when the pool refuses it its cells (log 56, the model's choice). -/
def Obligations.DistributorTimesMoveThePhase : Prop :=
  ∀ s : State,
    (∀ i : Instr, (i = .queryTimeout ∨ i = .deferralIntervalEnd ∨ i = .distributionDone ∨ i = .streamDrained) →
      s.ie.dist = none → exec i s = .next s) ∧
    (∀ d : Dist, s.ie.dist = some d →
      (d.query = none → exec .queryTimeout s = .next s) ∧
      (∀ q, d.query = some q → ¬ 0 ≤ (s.tb.lt - q.deadline).toInt → exec .queryTimeout s = .next s) ∧
      (∀ (q : Query) (x : Target), d.query = some q → 0 ≤ (s.tb.lt - q.deadline).toInt →
        d.targets[d.cursor]? = some x →
        let p := s.ie.params
        let plain (limit timeout : Nat) : Prop :=
          (x.retries < limit →
            ∃ t d', exec .queryTimeout s = .next t ∧ t.ie.dist = some d' ∧
              d'.targets = d.targets.set d.cursor { x with retries := x.retries + 1 } ∧ d'.phase = d.phase ∧
              d'.query = some
                { num := (s.ie.queryNum + 1) % 65536, kind := q.kind, deadline := s.tb.lt + BitVec.ofNat 48 timeout } ∧
              t.ie.counters.queryTimeouts = satInc s.ie.counters.queryTimeouts) ∧
          (limit ≤ x.retries →
            ∃ t d' y, exec .queryTimeout s = .next t ∧ t.ie.dist = some d' ∧ d'.targets[d.cursor]? = some y ∧
              y.st = .unreachable ∧ y.retries = x.retries ∧ (t.io.cu.events.get .image).pending = true ∧
              t.ie.counters.queryTimeouts = satInc s.ie.counters.queryTimeouts)
        (q.kind = .announce → plain p.announceRetries p.announceTimeout) ∧
        (∀ start, q.kind = .map start → plain p.mapRetries p.mapTimeout) ∧
        (q.kind = .verify → plain p.verifyRetries p.verifyTimeout) ∧
        (q.kind = .cancel → plain p.proposeRetries p.proposeTimeout) ∧
        let timed (x' : Target) : State :=
          { s with ie := { s.ie with
            counters := { s.ie.counters with queryTimeouts := satInc s.ie.counters.queryTimeouts }
            dist := some { d with query := none, targets := d.targets.set d.cursor x' } } }
        let again := timed { x with retries := x.retries + 1 }
        let lost := timed { x with st := .unreachable }
        let told : State := { lost with io := raise (.targetLost x.node d.phase) lost.io }
        let goes (t : State) : Prop := exec .queryTimeout s = .next t
        (q.kind = .announce → p.announceRetries ≤ x.retries → goes (announceNext told)) ∧
        (∀ start, q.kind = .map start → p.mapRetries ≤ x.retries → goes (pollNext (d.cursor + 1) told)) ∧
        (q.kind = .verify → p.verifyRetries ≤ x.retries → goes (verifyNext told)) ∧
        (q.kind = .propose → p.proposeRetries ≤ x.retries → goes (proposeNext told)) ∧
        (∀ c, q.kind = .cancel → d.cutover = some c → p.proposeRetries ≤ x.retries →
          goes (cancelNext { told with io := raise (.cancelLost x.node c) told.io })) ∧
        (∀ c, q.kind = .propose → d.cutover = some c → x.retries < p.proposeRetries →
          let past : Prop := 0 ≤ (s.mt - (c - BitVec.ofNat 48 (p.lead * 1000000 / 2))).toInt
          (past → goes (deferPass s.io.fp.nodeId .late again)) ∧ (¬ past → goes (sendQuery .propose again)))) ∧
      (∀ (q : Query) root, d.query = some q → 0 ≤ (s.tb.lt - q.deadline).toInt → q.kind = .quiet root →
        let timed (retries : Nat) : State :=
          { s with ie := { s.ie with
            counters := { s.ie.counters with queryTimeouts := satInc s.ie.counters.queryTimeouts }
            dist := some { d with query := none, quietRetries := retries } } }
        (d.quietRetries < s.ie.params.proposeRetries →
          exec .queryTimeout s = .next (sendQuery (.quiet root) (timed (d.quietRetries + 1)))) ∧
        (s.ie.params.proposeRetries ≤ d.quietRetries →
          let failed := timed d.quietRetries
          exec .queryTimeout s = .next (proposeNext { failed with io := raise (.quietRefused none) failed.io }))) ∧
      ((d.phase ≠ .propose ∨ ∀ wake, d.stage ≠ .waiting wake) → exec .deferralIntervalEnd s = .next s) ∧
      (∀ wake, d.phase = .propose → d.stage = .waiting wake →
        (¬ 0 ≤ (s.tb.lt - wake).toInt → exec .deferralIntervalEnd s = .next s) ∧
        (0 ≤ (s.tb.lt - wake).toInt → exec .deferralIntervalEnd s = .next (beginPass s)) ∧
        (∀ root, 0 ≤ (s.tb.lt - wake).toInt → (s.tb.sync = .track ∨ s.tb.sync = .locked ∨ s.tb.sync = .holdover) →
          s.tb.followed = some root →
          let round := 2 ^ (s.tb.params.exponent + 6)
          let c := BitVec.ofNat 48 ((s.mt.toNat + s.ie.params.lead * 1000000 + round - 1) / round * round)
          ∃ t, exec .deferralIntervalEnd s = .next t ∧ t.ie.dist = some { d with
            cutover := some c, forced := decide (s.ie.params.maxDeferrals < d.deferrals), stage := .asking, quietRetries := 0
            query := some {
              num := (s.ie.queryNum + 1) % 65536, kind := .quiet root.node
              deadline := s.tb.lt + BitVec.ofNat 48 s.ie.params.proposeTimeout } })) ∧
      (∀ c, d.phase = .armed → d.cutover = some c →
        (¬ 0 ≤ (s.mt - c).toInt → exec .distributionDone s = .next s) ∧
        (0 ≤ (s.mt - c).toInt → exec .distributionDone s = .next
          (({ s with ie := { s.ie with dist := some { d with phase := .done, query := none } } } : State).onIo
            (raise (.distributionEnded .done))))) ∧
      (d.phase ≠ .armed → exec .distributionDone s = .next s) ∧
      (d.phase ≠ .stream → d.phase ≠ .resend → exec .streamDrained s = .next s) ∧
      (d.phase = .stream → d.streamPos < d.img.count → exec .streamDrained s = .next s) ∧
      (d.phase = .resend → true ∈ d.resend → exec .streamDrained s = .next s) ∧
      (0 < s.io.blockFrames → exec .streamDrained s = .next s) ∧
      (s.io.blockFrames = 0 → d.phase = .stream → d.img.count ≤ d.streamPos →
        exec .streamDrained s = .next (pollNext 0 s)) ∧
      (s.io.blockFrames = 0 → d.phase = .resend → true ∉ d.resend →
        exec .streamDrained s = .next
          (pollNext 0 { s with ie := { s.ie with dist := some { d with round := d.round + 1 } } })) ∧
      (∀ (j : Nat) (x : Target), s.io.blockFrames = 0 →
        ((d.phase = .stream ∧ d.img.count ≤ d.streamPos) ∨ (d.phase = .resend ∧ true ∉ d.resend)) →
        d.targets[j]? = some x → (x.st = .ready ∨ x.st = .missing) →
        (∀ k y, k < j → d.targets[k]? = some y → y.st ≠ .ready ∧ y.st ≠ .missing) →
        ∃ t, exec .streamDrained s = .next t ∧ t.ie.dist = some { d with
          phase := .poll, cursor := j, round := if d.phase = .resend then d.round + 1 else d.round
          targets := d.targets.set j { x with missing := 0 }
          query := some {
            num := (s.ie.queryNum + 1) % 65536, kind := .map 0
            deadline := s.tb.lt + BitVec.ofNat 48 s.ie.params.mapTimeout } }))

/-- What the phases of a distribution go on with, and how they end (R165 to R169), the queue's own refusals aside: a query
with its number, destination, message and deadline, outstanding though the queue refuses it, or the pool its cells (log
56, the model's choice); the next target in list order; ANNOUNCE to STREAM or PROPOSE; POLL to RESEND, or to VERIFY with
the MISSING targets given up at the rounds limit; VERIFY to PROPOSE; a pass of the root, of a follower and of a node
without a root, whose refusal has a status that is not OK and else is open (log 9); a PROPOSE before the cutoff, LATE
after it; this node's own slot judged at the end of a pass; and a pass deferred: its CANCELs, then the interval or
ABORTED. A pass that ends LATE names this node (log 18, DEDUCED); QUERIES_SENT counts where the queue takes the query, and
the missing count is cleared as a target's round of map queries begins (log 19, DEDUCED); TARGET_LOST of several targets
is raised in list order (log 48, the model's choice), before the next phase places its query, and a DISARMED of this
node's own slot before PROPOSAL_DEFERRED (log 52, the model's choice). -/
def Obligations.DistributionPhasesEnd : Prop :=
  ∀ (s : State) (d : Dist), s.ie.dist = some d →
    let own := s.io.fp.nodeId
    let p := s.ie.params
    let put (x : Dist) : State := { s with ie := { s.ie with dist := some x } }
    let first (ok : TargetState → Prop) (start j : Nat) (x : Target) : Prop :=
      start ≤ j ∧ d.targets[j]? = some x ∧ ok x.st ∧ ∀ k y, start ≤ k → k < j → d.targets[k]? = some y → ¬ ok y.st
    let none_ (ok : TargetState → Prop) (start : Nat) : Prop := ∀ k y, start ≤ k → d.targets[k]? = some y → ¬ ok y.st
    let node (i : Nat) : Nat := match d.targets[i]? with
      | some x => x.node
      | none => 0
    (∀ k : QueryKind,
      let n := (s.ie.queryNum + 1) % 65536
      let sent (dst : Nat) (b : ImageBody) (timeout : Nat) : State :=
        let r := sendImage dst { query := n, id := d.img.id, body := b } s.io
        { s with
          io := r.2
          ie := { s.ie with
            queryNum := n
            counters := if r.1 then { s.ie.counters with queriesSent := satInc s.ie.counters.queriesSent } else s.ie.counters
            dist := some { d with query := some { num := n, kind := k, deadline := s.tb.lt + BitVec.ofNat 48 timeout } } } }
      sendQuery k s = match k with
        | .announce => sent (node d.cursor) (.announce d.img.version d.img.count d.img.crc d.replace) p.announceTimeout
        | .map start => sent (node d.cursor) (.mapQuery start) p.mapTimeout
        | .verify => sent (node d.cursor) .verifyQuery p.verifyTimeout
        | .propose => sent (node d.cursor) (.propose (d.cutover.getD 0) d.forced) p.proposeTimeout
        | .cancel => sent (node d.cursor) .cancel p.proposeTimeout
        | .quiet root => sent root (.quietRequest (d.cutover.getD 0)) p.proposeTimeout) ∧
    (∀ (dst : Nat) (m : ImageMsg) (io : Io),
      let n := (18 + (imageBytes m).length + 255) / 256
      (n ≤ io.fp.freeCells → (io.port .fp3).mgmt.length < 16 →
        sendImage dst m io = (true, (takeCells n io).onPort .fp3 fun e =>
          { e with
            mgmt := e.mgmt ++ [{ hdr := some { src := io.fp.nodeId, dst := dst }, content := .image m, cells := n }]
            choiceDue := true })) ∧
      (io.fp.freeCells < n → sendImage dst m io = (false, raise (.poolExhausted .fp3 .image n)
        (countFp (fun c => { c with poolFull := c.poolFull.inc .fp3 }) io))) ∧
      (n ≤ io.fp.freeCells → 16 ≤ (io.port .fp3).mgmt.length → sendImage dst m io = (false, raise (.mgmtDrop .fp3 .image)
        (countEs .fp3 (fun c => { c with mgmtFull := satInc c.mgmtFull }) (freeCells n (takeCells n io)))))) ∧
    (∀ j x, first (· = .pending) 0 j x →
      announceNext s = sendQuery .announce (put { d with phase := .announce, query := none, cursor := j })) ∧
    (∀ (j : Nat) (x : Target), none_ (· = .pending) 0 → d.targets[j]? = some x → x.st = .ready →
      announceNext s = put { d with phase := .stream, query := none }) ∧
    (none_ (· = .pending) 0 → none_ (· = .ready) 0 →
      announceNext s = beginPass (put { d with phase := .announce, query := none })) ∧
    (∀ start,
      let poll : TargetState → Prop := fun st => st = .ready ∨ st = .missing
      let polled : Dist := { d with phase := .poll, query := none }
      let missing := d.targets.filter fun t => t.st = .missing
      (∀ j x, first poll start j x → pollNext start s = sendQuery (.map 0)
        (put { polled with cursor := j, targets := d.targets.set j { x with missing := 0 } })) ∧
      (none_ poll start →
        (missing = [] → pollNext start s = verifyNext (put polled)) ∧
        (missing ≠ [] → p.roundsMax ≤ d.round →
          let given := put { polled with
            targets := d.targets.map fun t => if t.st = .missing then { t with st := .failed } else t }
          pollNext start s = verifyNext { given with
            io := missing.foldl (fun io t => raise (.targetLost t.node .poll) io) s.io }) ∧
        (missing ≠ [] → d.round < p.roundsMax → pollNext start s = put { d with phase := .resend, query := none }))) ∧
    (∀ j x, first (· = .complete) 0 j x → verifyNext s = sendQuery .verify
      (put { d with
        phase := .verify, query := none, cursor := j, targets := d.targets.set j { x with st := .verifying } })) ∧
    (none_ (· = .complete) 0 → verifyNext s = beginPass (put { d with phase := .verify, query := none })) ∧
    (let round := 2 ^ (s.tb.params.exponent + 6)
     let c := BitVec.ofNat 48 ((s.mt.toNat + p.lead * 1000000 + round - 1) / round * round)
     let pass := put { d with
       phase := .propose, cutover := some c, forced := decide (p.maxDeferrals < d.deferrals), stage := .asking
       quietRetries := 0, query := none }
     (s.tb.sync = .root →
       (quietVerdict c s.tb = .ok → beginPass s = proposeNext { pass with tb := quietTaken c s.tb }) ∧
       (quietVerdict c s.tb ≠ .ok →
         beginPass s = proposeNext { pass with io := raise (.quietRefused (some (quietVerdict c s.tb))) s.io })) ∧
     (∀ root, (s.tb.sync = .track ∨ s.tb.sync = .locked ∨ s.tb.sync = .holdover) → s.tb.followed = some root →
       beginPass s = sendQuery (.quiet root.node) pass) ∧
     ((s.tb.sync = .free ∨ s.tb.sync = .listen ∨ (s.tb.sync ≠ .root ∧ s.tb.followed = none)) →
       ∃ st, st ≠ .ok ∧
         beginPass s = proposeNext { pass with io := raise (.quietRefused (some st)) (Io.bumpFree s.io) })) ∧
    (∀ c, d.cutover = some c →
      let going : Dist := { d with stage := .proposing, query := none }
      let past : Prop := 0 ≤ (s.mt - (c - BitVec.ofNat 48 (p.lead * 1000000 / 2))).toInt
      let n := !s.ie.active
      let slot := s.ie.slot n
      let ready (y : SlotRec) : Prop :=
        slot.held = some y ∧ y.img.id = d.img.id ∧ (y.st = .verified ∨ ∃ c', y.st = .armed c')
      let playing : Prop := ∃ (e : Station) (f : Flow), some e ∈ s.su.table ∧ e.st.served = true ∧ some f ∈ s.cl.flows ∧
        f.key.station = e.addr ∧ f.effClass = 0 ∧ (f.cur = true ∨ f.prev = true)
      let minute := s.tb.cal.minuteOf c
      let maintenance (w : SchedWindow) : Prop := w ∈ s.se.active.windows ∧ w.inUse = true ∧ w.kind = .maintenance
      let outside : Prop := s.tb.cal.valid = true ∧ (∃ w, maintenance w) ∧
        ∀ w, maintenance w → ¬ (w.start ≤ minute ∧ minute < w.stop)
      let held (x : Dist) (r : SlotRec) : ImageEngine := (put x).ie.setSlot n { slot with held := some r }
      let disarmed (y : SlotRec) : State := match y.st with
        | .armed c' => { s with io := raise (.disarmed y.img.id c') s.io, ie := held going { y with st := .verified } }
        | _ => put going
      (∀ j x, first (· = .verified) 0 j x →
        (past → proposeNext s = deferPass own .late (put going)) ∧
        (¬ past → proposeNext s = sendQuery .propose (put { going with cursor := j }))) ∧
      (none_ (· = .verified) 0 →
        ((¬ ∃ y, ready y) → proposeNext s = deferPass own .late (put going)) ∧
        (0 ≤ (s.mt - c).toInt → proposeNext s = deferPass own .late (put going)) ∧
        (∀ y, ready y → ¬ 0 ≤ (s.mt - c).toInt →
          (d.forced = false → playing → proposeNext s = deferPass own .gameActive (disarmed y)) ∧
          (d.forced = false → ¬ playing → outside →
            proposeNext s = deferPass own .outsideMaintenance (disarmed y)) ∧
          ((d.forced = true ∨ (¬ playing ∧ ¬ outside)) →
            proposeNext s =
              { s with
                io := if y.st = .verified then raise (.armed d.img.id c) s.io else s.io
                ie := held { going with phase := .armed } { y with st := .armed c } })))) ∧
    (∀ n why,
      let ended := put { d with stage := .cancelling, query := none }
      deferPass n why s = cancelNext
        { ended with
          io := raise (.proposalDeferred n why) s.io
          ie := { ended.ie with counters := { s.ie.counters with deferrals := satInc s.ie.counters.deferrals } } }) ∧
    (∀ j x, first (· = .accepted) 0 j x → cancelNext s = sendQuery .cancel (put { d with cursor := j })) ∧
    (none_ (· = .accepted) 0 →
      let n := d.deferrals + 1
      (p.maxDeferrals < n → p.forceAfter = false →
        let ended := put { d with deferrals := n, phase := .aborted, query := none }
        cancelNext s = { ended with io := raise (.distributionEnded .deferred) s.io }) ∧
      ((n ≤ p.maxDeferrals ∨ p.forceAfter = true) →
        cancelNext s = put { d with
          deferrals := n, query := none, stage := .waiting (s.tb.lt + BitVec.ofNat 48 (p.interval * 60000000)) }))

/-! ## Stations -/

/-- The radio sideband events (R90 to R95, R105, R106, R117): levels, ports, arrivals and resumptions with their CLAIMs, an
arrival beside a DEPART context, what a SIGNAL of a station not served is taken as, the states a DISASSOCIATE makes, the
entries an ASSOCIATE or a HEARD makes, the eviction of an entry for a new one, and the events ignored or dropped. That
ASSOCIATIONS is counted where no entry is possible and for a SIGNAL taken as an ASSOCIATE, and that the port of a HEARD has
no effect, is log 21 (DEDUCED). -/
def Obligations.RadioEventsMoveEntries : Prop :=
  ∀ (r : Radio) (a : Addr) (level : Int) (s : State), StationsDistinct s →
    let l := max (-100) (min (-10) level)
    let smoothed (old : Option Int) : Int := match old with
      | none => 16 * l
      | some v => v + (16 * l - v).tdiv 8
    let heard (e : Station) : Station := { e with own := some l, level := some (smoothed e.level) }
    let counted (f : SuCounters → SuCounters) : State := { s with su := { s.su with counters := f s.su.counters } }
    let ignored := counted fun c => { c with eventsIgnored := satInc c.eventsIgnored }
    let put (j : Nat) (e : Station) (f : SuCounters → SuCounters) : State :=
      { s with su := { s.su with table := s.su.table.set j (some e), counters := f s.su.counters } }
    let associated (c : SuCounters) : SuCounters := { c with associations := satInc c.associations }
    let firstEmpty (j : Nat) : Prop :=
      s.su.table[j]? = some none ∧ ∀ k, k < j → ∃ e, s.su.table[k]? = some (some e)
    let freeContext (i : Nat) (x : CtxSlot) : Prop :=
      s.hu.slots[i]? = some x ∧ x.ctx = none ∧ ∀ k y, k < i → s.hu.slots[k]? = some y → y.ctx ≠ none
    let noContext : Prop := ∀ y ∈ s.hu.slots, ∀ k, y.ctx = some k → k.station ≠ a
    let arriving (x : CtxSlot) (prev : Nat) (own : Option Allowance) : CtxSlot :=
      { gen := (x.gen + 1) % 256, ctx := some {
        station := a, peer := prev
        st := .arrive { own := own, deadline := s.tb.lt + BitVec.ofNat 48 s.hu.params.tctx } } }
    let without (f : Station) : Prop := ∀ y ∈ s.hu.slots, ∀ k, y.ctx = some k → k.station ≠ f.addr
    let left (k : Nat) (f : Station) : Prop :=
      s.su.table[k]? = some (some f) ∧ without f ∧ ∃ al, f.st = .detached al
    let gone (k : Nat) (f : Station) : Prop :=
      s.su.table[k]? = some (some f) ∧ without f ∧ ∃ n p, f.st = .away n p
    let oldest (p : Nat → Station → Prop) (j : Nat) (e : Station) : Prop :=
      p j e ∧ ∀ k f, p k f → (s.mt - f.since).toNat < (s.mt - e.since).toNat ∨
        ((s.mt - f.since).toNat = (s.mt - e.since).toNat ∧ j ≤ k)
    let evicted (j : Nat) (e : Station) : Prop := oldest left j e ∨ ((∀ k f, ¬ left k f) ∧ oldest gone j e)
    (∀ (j : Nat) (e : Station), s.su.table[j]? = some (some e) → e.addr = a →
      (∀ q al, e.st = .serving q al →
        exec (.associate r a level) s = .next (put j { heard e with st := .serving r al } associated) ∧
        exec (.signal r a level) s = .next (put j { heard e with st := .serving r al } id) ∧
        (q ≠ r → exec (.disassociate r a) s = .next ignored) ∧
        (q = r → ∃ t, exec (.disassociate r a) s = .next t ∧
          t.su.table = s.su.table.set j (some { e with st := .detached al, since := s.mt, dwell := 0, eff := none }) ∧
          t.su.counters.disassociations = satInc s.su.counters.disassociations ∧ t.io = s.io ∧ t.hu = s.hu) ∧
        exec (.heard r a level) s = .next ignored) ∧
      (∀ q c, e.st = .arriving q c →
        exec (.associate r a level) s = .next (put j { heard e with st := .arriving (some r) c } associated) ∧
        exec (.signal r a level) s = .next (put j { heard e with st := .arriving (some r) c } id) ∧
        (q ≠ some r → exec (.disassociate r a) s = .next ignored) ∧
        (q = some r → exec (.disassociate r a) s = .next
          (put j { e with st := .arriving none c } fun k => { k with disassociations := satInc k.disassociations })) ∧
        exec (.heard r a level) s = .next ignored) ∧
      (e.st.served = false →
        exec (.signal r a level) s = exec (.associate r a level)
          (counted fun c => { c with implicitAssociations := satInc c.implicitAssociations }) ∧
        exec (.disassociate r a) s = .next ignored ∧
        exec (.heard r a level) s = .next (put j { heard e with heard := true } id)) ∧
      (∀ al, e.st = .detached al → noContext →
        ∃ t, exec (.associate r a level) s = .next t ∧
          t.su.table = s.su.table.set j (some { heard e with
            st := .serving r al, since := s.mt, dwell := 0, eff := t.se.effective e.profile (.serving r al) }) ∧
          t.hu.slots = s.hu.slots ∧ t.hu.counters.resumes = satInc s.hu.counters.resumes ∧
          ClaimQueued a s.io.fp.nodeId (nextCutover s) s t) ∧
      (∀ n p i x, e.st = .away n p → noContext → freeContext i x →
        let prev := match p with
          | some (m, _) => m
          | none => n.getD 0
        ∃ t, exec (.associate r a level) s = .next t ∧
          t.su.table = s.su.table.set j (some { heard e with
            st := .arriving (some r) 0, since := s.mt, dwell := 0, eff := t.se.effective e.profile (.arriving (some r) 0) }) ∧
          t.hu.slots = s.hu.slots.set i (arriving x prev none) ∧ ClaimQueued a prev (nextCutover s) s t) ∧
      (∀ i x m y d cut l n o sn, e.st.served = false → s.departOf a = some (m, d) → s.hu.slots[m]? = some y →
        d.st = .depart false cut l n o sn → 0 < o → freeContext i x →
        let prev := match e.st with
          | .away _ (some (k, _)) => k
          | .away (some k) none => k
          | _ => 0
        ∃ t, exec (.associate r a level) s = .next t ∧
          t.su.table = s.su.table.set j (some { heard e with
            st := .arriving (some r) 0, since := s.mt, dwell := 0, eff := t.se.effective e.profile (.arriving (some r) 0) }) ∧
          t.hu.slots = (s.hu.slots.set i (arriving x prev e.st.allowance)).set m
            { y with ctx := some { d with st := .depart true cut l n o sn } } ∧
          ClaimQueued a prev (nextCutover s) s t)) ∧
    (s.entry a = none →
      exec (.signal r a level) s = exec (.associate r a level)
        (counted fun c => { c with implicitAssociations := satInc c.implicitAssociations }) ∧
      exec (.disassociate r a) s = .next ignored ∧
      ((∀ o ∈ s.su.table, o.isSome = true) →
        exec (.heard r a level) s = .next (counted fun c => { c with heardDropped := satInc c.heardDropped }) ∧
        ((∀ k f, ¬ left k f ∧ ¬ gone k f) →
          exec (.associate r a level) s = .next
            ((counted fun c => { associated c with stationFull := satInc c.stationFull }).onIo
              (raise (.noEntry a (radioPort r)))))) ∧
      (∀ j,
        let new : Station :=
          { addr := a, st := .away none none, profile := s.se.active.member a, level := some (16 * l), own := some l
            since := s.mt }
        let made (t : State) (i : Nat) (x : CtxSlot) : Prop :=
          t.su.table = s.su.table.set j (some { new with
            st := .arriving (some r) 0, eff := t.se.effective (s.se.active.member a) (.arriving (some r) 0) }) ∧
            t.su.counters.associations = satInc s.su.counters.associations ∧
            t.hu.slots = s.hu.slots.set i (arriving x 0 none) ∧ ClaimQueued a 0 (nextCutover s) s t
        (firstEmpty j →
          (∃ t, exec (.heard r a level) s = .next t ∧ t.su.table = s.su.table.set j (some { new with heard := true }) ∧
            t.hu = s.hu ∧ t.io = s.io) ∧
          ∀ i x, noContext → freeContext i x → ∃ t, exec (.associate r a level) s = .next t ∧ made t i x ∧
            t.su.counters.stationsEvicted = s.su.counters.stationsEvicted) ∧
        (∀ e i x, (∀ o ∈ s.su.table, o.isSome = true) → evicted j e → noContext → freeContext i x →
          ∃ t, exec (.associate r a level) s = .next t ∧ made t i x ∧
            t.su.counters.stationsEvicted = satInc s.su.counters.stationsEvicted ∧
            ∀ f, some f ∈ t.cl.flows → f.key.station = e.addr → f.pinned = true)))

/-- Handoffs the context table has no room for, or that leave a DEPART context behind (R107, R119, R122, R123): an
ASSOCIATE that needs an ARRIVE context no slot is free for; a CLAIM for a station here with no slot free; and the early
end of a DEPART context left beside the entry, which a CLAIM brings before the departure or the conversion. That the
RELEASE stands ahead of the CLAIM in the queue, and that the RELEASE of R107 is built after the context gave up its
snapshot, is log 23 (DEDUCED). Two hints of one key at the front of a hint list both stay (log 55, the model's choice). -/
def Obligations.HandoffsWithoutRoomOrWithAContextLeft : Prop :=
  (∀ (r : Radio) (a : Addr) (level : Int) (s : State) (j : Nat) (e : Station), StationsDistinct s →
    s.su.table[j]? = some (some e) → e.addr = a → e.st.served = false → (∀ y ∈ s.hu.slots, y.ctx ≠ none) →
    ((∃ al, e.st = .detached al) → s.departOf a ≠ none) →
    let l := max (-100) (min (-10) level)
    let smoothed : Int := match e.level with
      | none => 16 * l
      | some v => v + (16 * l - v).tdiv 8
    let prev := match e.st with
      | .away _ (some (k, _)) => k
      | .away (some k) none => k
      | _ => 0
    let source := (s.departOf a).bind fun d => d.2.st.snapshot
    ∃ t al, exec (.associate r a level) s = .next t ∧
      FormedAs s.se e.profile source 0 (prev = 0) al ∧ FallbackCounted source (prev = 0) s t ∧
      t.su.table = s.su.table.set j (some { e with
        st := .serving r al, since := s.mt, dwell := 0, own := some l, level := some smoothed
        eff := t.se.effective e.profile (.serving r al) }) ∧
      t.hu.counters.contextFull = satInc s.hu.counters.contextFull ∧ (t.io.cu.events.get .handoff).pending = true ∧
      ((∀ k d cut l n sn, s.departOf a = some (k, d) → d.st ≠ .depart false cut l n 0 sn) →
        ClaimQueued a prev (nextCutover s) s t) ∧
      (s.departOf a = none → t.hu.slots = s.hu.slots) ∧
      (∀ k d y, s.departOf a = some (k, d) → s.hu.slots[k]? = some y →
        (∀ fl cut l n o sn, d.st = .depart fl cut l n o sn → (fl = true ∨ 0 < o) →
          t.hu.slots = s.hu.slots.set k { y with ctx := some { d with st := .depart true cut l n o none } }) ∧
        (∀ w p ch cut n o, d.st = .await w p ch cut n o → t.hu.slots = s.hu.slots) ∧
        (∀ cut l n sn, d.st = .depart false cut l n 0 sn → d.hints.length ≤ 8 → s.io.cu.reg = none →
          2 ≤ s.io.fp.freeCells → (s.io.port .fp3).mgmt.length < 15 →
          t.hu.slots = s.hu.slots.set k { y with ctx := none } ∧
            ∃ no, no.known = false ∧ (t.io.port .fp3).mgmt = (s.io.port .fp3).mgmt ++
              [releaseFrame s a d.peer n no d.hints, claimFrame s a prev (nextCutover s)]))) ∧
  (∀ (c : Claim) (s : State) (j : Nat) (e : Station), 1 ≤ s.io.fp.freeCells → StationsDistinct s →
    c.claimant ≠ s.io.fp.nodeId → s.su.table[j]? = some (some e) → e.addr = c.station →
    let go := exec (.claimReceived c) s
    let gone : Station := { e with st := .away (some c.claimant) none, eff := none, dwell := 0, since := s.mt }
    (∀ al, ((∃ r, e.st = .serving r al) ∨ e.st = .detached al) → (∀ y ∈ s.hu.slots, y.ctx ≠ none) →
      s.departOf c.station = none →
      ∃ t, go = .next t ∧ t.su.table = s.su.table.set j (some gone) ∧ t.hu.slots = s.hu.slots ∧
        t.hu.counters.contextFull = satInc s.hu.counters.contextFull ∧ t.hu.counters.departures = s.hu.counters.departures ∧
        (t.io.cu.events.get .handoff).pending = true ∧
        (s.io.cu.reg = none → (s.io.port .fp3).mgmt.length < 16 →
          ReleaseQueued c.station c.claimant 0 (some al) (s.hintsOf c.station) s t)) ∧
    (∀ k y d, s.departOf c.station = some (k, d) → s.hu.slots[k]? = some y →
      (∀ al i x, ((∃ r, e.st = .serving r al) ∨ e.st = .detached al) → s.arriveOf c.station = none →
        (s.hu.slots.set k { y with ctx := none })[i]? = some x → x.ctx = none →
        (∀ m z, m < i → (s.hu.slots.set k { y with ctx := none })[m]? = some z → z.ctx ≠ none) →
        ∃ t, go = .next t ∧ EndedEarly k y d s t ∧ t.su.table = s.su.table.set j (some gone) ∧
          t.hu.slots = (s.hu.slots.set k { y with ctx := none }).set i { gen := (x.gen + 1) % 256, ctx := some {
            station := c.station, peer := c.claimant, hints := s.hintsOf c.station
            st := .depart false c.cutover s.hu.params.linger 0 0 (some al) } } ∧
          t.hu.counters.departures = satInc s.hu.counters.departures) ∧
      (∀ r ch i x b w, e.st = .arriving r ch → s.arriveOf c.station = some (i, b) → s.hu.slots[i]? = some x →
        b.st = .arrive w →
        ∃ t, go = .next t ∧ EndedEarly k y d s t ∧ t.su.table = s.su.table.set j (some gone) ∧
          t.hu.slots = (s.hu.slots.set k { y with ctx := none }).set i { x with ctx := some { b with
            peer := c.claimant
            hints := (b.hints ++ (s.hintsOf c.station).filter fun h => !b.hints.contains h).take 8
            st := .await w b.peer ch c.cutover 0 0 } } ∧
          t.hu.counters.conversions = satInc s.hu.counters.conversions)))

/-- The minute observed (R99, R132, R134, R135, R137, R138, R141, R142, R145), step by step: no event without a new minute (log 6, DEDUCED)
or without a valid calendar, even while a minute is held (log 25, DEDUCED); a normal one charges the ended minute; every one
clears the activity bytes, judges the UNTIL_EDGE overrides and computes the effective states and the classes of the flows; a
day boundary refills the SERVING and DETACHED entries, a calendar start those not refilled today, and both clear the pending
charges of entries and contexts; a pending commit takes effect; a day boundary removes the DETACHED entries without a
context. STATE_CHANGED comes at a commit and again at the computation of step 6, in slot order, and OVERRIDE_ENDED in the
order of the profiles (log 41, the model's choice). -/
def Obligations.MinuteEventsChargeAndRefill : Prop :=
  ∀ s : State,
    (s.tb.cal.valid = false → exec .minuteEvent s = .next s) ∧
    (s.tb.cal.valid = true →
      let new := s.tb.cal.minuteOf s.se.ts
      let today := new / 1440
      let start : Bool := s.se.minute.isNone
      let normal : Bool := match s.se.minute with
        | some o => new = o + 1 || (o = 10079 && new = 0)
        | none => false
      let day : Bool := match s.se.minute with
        | some o => if normal then new % 1440 = 0 else (new + 10080 - o) % 10080 < 5040 && o / 1440 ≠ today
        | none => false
      let commit : Bool := s.se.pending = some .nextMinute || (s.se.pending = some .nextDay && day)
      let metered (e : Station) : Bool := e.eff = some .metered && s.se.threshold ≤ e.activity
      let charged (e : Station) : Bool := metered e && match e.st with
        | .serving _ a => a.known
        | .arriving _ _ => true
        | _ => false
      let refilled (a : Allowance) : Bool := day || (start && (!a.known || a.day ≠ today))
      let refilledEntry (e : Station) : Bool := match e.st with
        | .serving _ a => refilled a
        | .detached a => refilled a
        | _ => false
      let purged (e : Station) : Bool := day && !s.hu.holds e.addr && match e.st with
        | .detached _ => true
        | _ => false
      let entries := s.su.table.filterMap id
      (s.se.minute = some new → exec .minuteEvent s = .next s) ∧
      (s.se.minute ≠ some new →
        ∃ t, exec .minuteEvent s = .next t ∧ t.se.minute = some new ∧ t.tb = s.tb ∧ t.ie = s.ie ∧ t.se.ts = s.se.ts ∧
          t.se.staged = s.se.staged ∧ t.se.threshold = s.se.threshold ∧
          t.se.counters.minuteEvents = satInc s.se.counters.minuteEvents ∧
          t.se.counters.jumps =
            (if start = false ∧ normal = false then satInc s.se.counters.jumps else s.se.counters.jumps) ∧
          t.se.counters.minutesCharged =
            (if normal then satAdd s.se.counters.minutesCharged (entries.countP charged) else s.se.counters.minutesCharged) ∧
          t.se.counters.refills =
            (if day || start then satAdd s.se.counters.refills (entries.countP refilledEntry) else s.se.counters.refills) ∧
          (∀ (i : Nat) (e : Station), t.su.table[i]? = some (some e) → e.activity = 0) ∧
          (commit = true → t.se.active = s.se.staged ∧ t.se.pending = none ∧
            (t.io.cu.events.get .schedule).pending = true) ∧
          (commit = false → t.se.active = s.se.active ∧ t.se.pending = s.se.pending) ∧
          (∀ (id : Nat) (o : Overrides), 1 ≤ id → id ≤ 31 → s.se.overrides[id - 1]? = some o →
            let ends (v : Override) : Bool := v.scope = .untilEdge && t.se.base id (some new) ≠ v.base
            t.se.overrides[id - 1]? = some { pause := o.pause.filter (!ends ·), grant := o.grant.filter (!ends ·) } ∧
              ((∃ v, (o.pause = some v ∨ o.grant = some v) ∧ ends v = true) →
                (t.io.cu.events.get .schedule).pending = true)) ∧
          (∀ (k : Nat) (x : CtxSlot), s.hu.slots[k]? = some x →
            ((day || start) = false ∨ (∀ c, x.ctx = some c → ∀ w p ch cut n o, c.st ≠ .await w p ch cut n o) →
              t.hu.slots[k]? = some x) ∧
            (∀ c w p ch cut n o, (day || start) = true → x.ctx = some c → c.st = .await w p ch cut n o →
              t.hu.slots[k]? = some { x with ctx := some { c with st := .await w p 0 cut n o } })) ∧
          (StationsDistinct s →
            t.su.counters.detachedPurged = satAdd s.su.counters.detachedPurged (entries.countP purged) ∧
            (∀ (i : Nat), s.su.table[i]? = some none → t.su.table[i]? = some none) ∧
            ∀ (i : Nat) (e : Station), s.su.table[i]? = some (some e) →
              let profile := if commit then s.se.staged.member e.addr else e.profile
              let full : Allowance :=
                { remaining := (((t.se.active.profile profile).daily[today]?).getD 0) * 60, day := today, known := true }
              let st : StState := match e.st with
                | .serving r a => .serving r (if refilled a then full
                    else if normal && charged e then { a with remaining := a.remaining - 60 } else a)
                | .arriving r c => .arriving r (if day || start then 0
                    else if normal && charged e then min (c + 60) 86400 else c)
                | .detached a => .detached (if refilled a then full else a)
                | .away n p => .away n p
              (purged e = true → t.su.table[i]? = some none ∧
                ∀ f, some f ∈ t.cl.flows → f.key.station = e.addr → f.pinned = true) ∧
              (purged e = false → t.su.table[i]? = some (some { e with
                st := st, profile := profile, activity := 0
                eff := if e.st.served then t.se.effective profile st else e.eff })) ∧
              (∀ f v, e.st.served = true → t.se.effective profile st = some v → some f ∈ t.cl.flows →
                f.key.station = e.addr →
                (f.effClass, f.suppressed) = judge v (t.se.active.profile profile) f.clsClass f.essential)) ∧
          (StationsDistinct s →
            let less (st : StState) : StState := match st with
              | .serving r a => .serving r { a with remaining := a.remaining - 60 }
              | .arriving r c => .arriving r (min (c + 60) 86400)
              | x => x
            let ended : State :=
              { s with
                su := { s.su with table := s.su.table.map fun o => o.map fun e =>
                  { e with st := if normal && charged e then less e.st else e.st, activity := 0 } }
                se := { s.se with
                  minute := some new
                  counters := { s.se.counters with
                    minuteEvents := t.se.counters.minuteEvents, jumps := t.se.counters.jumps
                    minutesCharged := t.se.counters.minutesCharged } } }
            let committed : State := match s.se.pending with
              | some m => if commit then schedCommitted m ended else ended
              | none => ended
            let filled (e : Station) : StState :=
              let full : Allowance :=
                { remaining := (((t.se.active.profile e.profile).daily[today]?).getD 0) * 60, day := today, known := true }
              match e.st with
              | .serving r a => .serving r (if refilled a then full else a)
              | .arriving r _ => .arriving r 0
              | .detached a => .detached (if refilled a then full else a)
              | .away n p => .away n p
            let cleared (c : Context) : Context := match c.st with
              | .await w p _ cut n o => { c with st := .await w p 0 cut n o }
              | _ => c
            let full : State :=
              if day || start then
                { committed with
                  su := { committed.su with table := committed.su.table.map fun o => o.map fun e =>
                    { e with st := filled e } }
                  hu := { s.hu with slots := s.hu.slots.map fun x => { x with ctx := x.ctx.map cleared } }
                  se := { committed.se with counters := { committed.se.counters with refills := t.se.counters.refills } } }
              else committed
            let ends (id : Nat) (v : Override) : Bool := v.scope = .untilEdge && t.se.base id (some new) ≠ v.base
            let gone (id : Nat) : List (Nat × OverrideKind) :=
              let o := s.se.overridesOf id
              (match o.pause with
                | some v => if ends id v then [(id, OverrideKind.pause)] else []
                | none => []) ++
              (match o.grant with
                | some v => if ends id v then [(id, OverrideKind.grant)] else []
                | none => [])
            let judged : State :=
              { full with
                io := ((List.range 31).flatMap fun i => gone (i + 1)).foldl
                  (fun io g => raise (.overrideEnded g.1 g.2) io) full.io
                se := { full.se with overrides := t.se.overrides } }
            let done := statesComputed (fun _ => true) judged
            t.io = done.io ∧ t.se = done.se ∧ t.hu = done.hu ∧ (day = false → t = done))))

/-- The times observed at station and context slots (R112, R114, R117, R118, R121, R122): a pending server taken at its
cutover, the end of forwarding, and the end of an arrival, whose hints go to the Classifier (R111), and of a predecessor's
wait, each with the allowance of R143 from the source R112 or R121 names. One whose condition does not hold changes nothing
(log 6, DEDUCED); the day of an allowance formed without a current minute is open (log 9). -/
def Obligations.HandoffTimesMoveEntriesAndContexts : Prop :=
  ∀ (i : Nat) (s : State),
    (StationsDistinct s →
      (s.su.table[i]?.join = none → exec (.pendingCutoverReached i) s = .next s) ∧
      (∀ e : Station, s.su.table[i]? = some (some e) →
        (∀ n p c, e.st = .away n (some (p, c)) → 0 ≤ (s.mt - c).toInt →
          let e' : Station := { e with st := .away (some p) none }
          exec (.pendingCutoverReached i) s = .next { s with su := { s.su with table := s.su.table.set i (some e') } }) ∧
        ((∀ n p c, e.st = .away n (some (p, c)) → ¬ 0 ≤ (s.mt - c).toInt) →
          exec (.pendingCutoverReached i) s = .next s))) ∧
    (s.hu.ctxAt i = none → exec (.lingerEnd i) s = .next s ∧ exec (.waitDeadline i) s = .next s ∧
      exec (.predecessorDeadline i) s = .next s) ∧
    (∀ (x : CtxSlot) (c : Context), s.hu.slots[i]? = some x → x.ctx = some c →
      (∀ cut l n o sn, c.st = .depart false cut l n o sn →
        let past : Prop := 0 ≤ (s.mt - (cut + BitVec.ofNat 48 (l * 2 ^ s.tb.params.exponent))).toInt
        let flushed : Context := { c with st := .depart true cut l n o sn }
        (¬ past → exec (.lingerEnd i) s = .next s) ∧
        (past → 0 < o → exec (.lingerEnd i) s = .next
          { s with hu := { s.hu with slots := s.hu.slots.set i { x with ctx := some flushed } } }) ∧
        (past → o = 0 → c.hints.length ≤ 8 → 1 ≤ s.io.fp.freeCells → (s.io.port .fp3).mgmt.length < 16 →
          ∃ t al, exec (.lingerEnd i) s = .next t ∧
            t.hu.slots = s.hu.slots.set i { x with ctx := none } ∧
            t.hu.counters.releasesSent = satInc s.hu.counters.releasesSent ∧
            (∀ v, sn = some v → al = v) ∧ (sn = none → al.known = false) ∧
            (t.io.port .fp3).mgmt = (s.io.port .fp3).mgmt ++ [{
              hdr := some { src := s.io.fp.nodeId, dst := c.peer }
              content := .station (.release {
                station := c.station, sender := s.io.fp.nodeId, forwarded := n, allow := al
                profile := (match s.entry c.station with
                  | some e => e.profile
                  | none => 0)
                hints := c.hints })
              cells := 1 }])) ∧
      ((∀ cut l n o sn, c.st ≠ .depart false cut l n o sn) → exec (.lingerEnd i) s = .next s) ∧
      (∀ w, c.st = .arrive w →
        (¬ 0 ≤ (s.tb.lt - w.deadline).toInt → exec (.waitDeadline i) s = .next s) ∧
        (0 ≤ (s.tb.lt - w.deadline).toInt →
          let source : Option Allowance := match w.taken with
            | some k => some k.carried
            | none => match w.own with
              | some a => some a
              | none => (s.departOf c.station).bind fun d => d.2.st.snapshot
          ∃ t, exec (.waitDeadline i) s = .next t ∧ ArrivalCompleted i x c w source s t ∧
            (w.taken = none → c.peer ≠ 0 →
              t.hu.counters.contextsLost = satInc s.hu.counters.contextsLost ∧
                (t.io.cu.events.get .handoff).pending = true ∧ ClaimQueued c.station 0 s.mt s t) ∧
            (¬ (w.taken = none ∧ c.peer ≠ 0) → t.hu.counters.contextsLost = s.hu.counters.contextsLost ∧
              t.hu.counters.claimsSent = s.hu.counters.claimsSent))) ∧
      ((∀ w, c.st ≠ .arrive w) → exec (.waitDeadline i) s = .next s) ∧
      (∀ w p ch cut n o, c.st = .await w p ch cut n o →
        (¬ 0 ≤ (s.tb.lt - w.deadline).toInt → exec (.predecessorDeadline i) s = .next s) ∧
        (0 ≤ (s.tb.lt - w.deadline).toInt →
          ∃ t, exec (.predecessorDeadline i) s = .next t ∧ WaitEnded i x c w p ch cut n o s t ∧
            (w.taken = none → p ≠ 0 → t.hu.counters.contextsLost = satInc s.hu.counters.contextsLost ∧
              (t.io.cu.events.get .handoff).pending = true) ∧
            (¬ (w.taken = none ∧ p ≠ 0) → t.hu.counters.contextsLost = s.hu.counters.contextsLost))) ∧
      ((∀ w p ch cut n o, c.st ≠ .await w p ch cut n o) → exec (.predecessorDeadline i) s = .next s))

/-! ## The flash port and the switch -/

/-- The flash port (R152 to R155, R166, R167) and the switch (R163): the next operation begun, the block reads of STREAM
and RESEND among them, and a block passed over for want of cells or of room in the class 3 queue; the effect of each
completion; and the switch of an ARMED slot at its cutover. A start or a completion without its operation, and a switch
not yet due, change nothing (log 6, DEDUCED); a write completed for a flag already set counts BLOCKS_WRITTEN alone, and a
block read whose distribution has ended frees its cells (log 17, DEDUCED); the transmitter's frame is one of the four of
R68 (log 19, DEDUCED). VERIFY_DONE comes before the VERIFY REPORT, and the cells of a failed block read are freed before
the CANCELs and DISTRIBUTION_ENDED (log 47, the model's choice); the CANCELs are placed in list order before
DISTRIBUTION_ENDED, and SLOT_FAILED of a verify read comes before VERIFY_DONE (log 52, the model's choice). A block read
reads the slot that is staging when it begins (log 61, the model's choice). -/
def Obligations.FlashOperationsAndTheSwitch : Prop :=
  ∀ s : State,
    let stage := !s.ie.active
    let load := (s.ie.slot stage).load
    let ended (e : ImageEngine) : ImageEngine := { e with inFlight := none }
    (∀ o, s.ie.inFlight = some o → exec .flashOperationStart s = .next s) ∧
    (s.ie.inFlight = none →
      (s.ie.pendingOp = some .erase → exec .flashOperationStart s = .next
        { s with ie := { s.ie with pendingOp := none, inFlight := some (.erase stage load) } }) ∧
      (s.ie.pendingOp = some .verify → exec .flashOperationStart s = .next
        { s with ie := { s.ie with pendingOp := none, inFlight := some (.verify stage load) } }) ∧
      (∀ w rest, s.ie.pendingOp = none → s.ie.writeQ = w :: rest → exec .flashOperationStart s = .next
        { s with ie := { s.ie with
          writeQ := { w with begun := true } :: rest, inFlight := some (.write stage w.load w.index) } }) ∧
      (s.ie.pendingOp = none → s.ie.writeQ = [] →
        (s.ie.dist = none → exec .flashOperationStart s = .next s) ∧
        (∀ d, s.ie.dist = some d →
          (4 ≤ s.io.blockFrames → exec .flashOperationStart s = .next s) ∧
          (d.phase ≠ .stream → d.phase ≠ .resend → exec .flashOperationStart s = .next s) ∧
          (d.phase = .stream → d.streamPos < d.img.count → s.io.blockFrames < 4 → 5 ≤ s.io.fp.freeCells →
            exec .flashOperationStart s = .next
              { s with io := takeCells 5 s.io, ie := { s.ie with inFlight := some (.blockRead stage load d.streamPos 5 true) } }) ∧
          (d.phase = .stream → d.img.count ≤ d.streamPos → exec .flashOperationStart s = .next s) ∧
          (d.phase = .resend → true ∉ d.resend → exec .flashOperationStart s = .next s) ∧
          (∀ b : Nat, d.phase = .resend → d.resend[b]? = some true → (∀ j, j < b → d.resend[j]? = some false) →
            s.io.blockFrames < 4 → 5 ≤ s.io.fp.freeCells →
            exec .flashOperationStart s = .next
              { s with io := takeCells 5 s.io, ie := { s.ie with inFlight := some (.blockRead stage load b 5 true) } }) ∧
          (s.io.blockFrames < 4 → s.io.fp.freeCells < 5 →
            let passed (x : Dist) : State :=
              { s with
                io := raise (.poolExhausted .fp3 .image 5) (countFp (fun k => { k with poolFull := k.poolFull.inc .fp3 }) s.io)
                ie := { s.ie with dist := some x } }
            (d.phase = .stream → d.streamPos < d.img.count →
              exec .flashOperationStart s = .next (passed { d with streamPos := d.streamPos + 1 })) ∧
            (∀ b : Nat, d.phase = .resend → d.resend[b]? = some true → (∀ j, j < b → d.resend[j]? = some false) →
              exec .flashOperationStart s = .next (passed { d with resend := d.resend.set b false })))))) ∧
    (∀ ok, (∀ n l, s.ie.inFlight ≠ some (.erase n l)) → exec (.eraseComplete ok) s = .next s) ∧
    (∀ ok, (∀ n l b, s.ie.inFlight ≠ some (.write n l b)) → exec (.writeComplete ok) s = .next s) ∧
    (∀ ok data, (∀ n l, s.ie.inFlight ≠ some (.verify n l)) → exec (.verifyComplete ok data) s = .next s) ∧
    (∀ ok data, (∀ m l b n live, s.ie.inFlight ≠ some (.blockRead m l b n live)) → exec (.blockReadComplete ok data) s = .next s) ∧
    (∀ n l, s.ie.inFlight = some (.erase n l) →
      ((∀ r, (s.ie.slot n).held = some r → r.st ≠ .erasing) →
        ∀ ok, exec (.eraseComplete ok) s = .next { s with ie := ended s.ie }) ∧
      (∀ r, (s.ie.slot n).held = some r → r.st = .erasing →
        let x := s.ie.slot n
        let clear : SlotRec :=
          { r with map := List.replicate r.img.count false, received := 0, failures := 0, st := .receiving }
        exec (.eraseComplete true) s = .next { s with ie := (ended s.ie).setSlot n { x with held := some clear } } ∧
        let failed : ImageEngine := (ended s.ie).setSlot n { x with held := some { r with st := .failed } }
        exec (.eraseComplete false) s = .next { s with ie := failed, io := raise (.slotFailed n .erase) s.io })) ∧
    (∀ n l b, s.ie.inFlight = some (.write n l b) →
      let x := s.ie.slot n
      let io := freeCells ((s.ie.writeQ.filter (·.begun)).map (·.cells)).sum s.io
      let e : ImageEngine := { s.ie with inFlight := none, writeQ := s.ie.writeQ.filter fun w => !w.begun }
      let c := s.ie.counters
      (l ≠ x.load → ∀ ok, exec (.writeComplete ok) s = .next
        { s with io := io, ie := { e with counters := { c with staleCompletions := satInc c.staleCompletions } } }) ∧
      (∀ r, l = x.load → x.held = some r → r.map[b]? = some false →
        let r' : SlotRec :=
          { r with
            map := r.map.set b true, received := r.received + 1
            st := if r.received + 1 = r.img.count ∧ r.st = .receiving then .complete else r.st }
        let e' : ImageEngine := { e with counters := { c with blocksWritten := satInc c.blocksWritten } }
        exec (.writeComplete true) s = .next { s with io := io, ie := e'.setSlot n { x with held := some r' } }) ∧
      (∀ r, l = x.load → x.held = some r → r.map[b]? = some true →
        exec (.writeComplete true) s = .next
          { s with io := io, ie := { e with counters := { c with blocksWritten := satInc c.blocksWritten } } }) ∧
      (∀ r, l = x.load → x.held = some r →
        let e' : ImageEngine := { e with counters := { c with writeFailures := satInc c.writeFailures } }
        let again : SlotRec := { r with failures := r.failures + 1 }
        (r.failures < 2 → exec (.writeComplete false) s = .next
          { s with io := io, ie := e'.setSlot n { x with held := some again } }) ∧
        (r.failures = 2 → ∃ t, exec (.writeComplete false) s = .next t ∧ t.ie.writeQ = [] ∧
          t.ie.slot n = { x with held := some { r with failures := 3, st := .failed } } ∧
          (t.io.cu.events.get .image).pending = true))) ∧
    (∀ n l data, s.ie.inFlight = some (.verify n l) →
      let x := s.ie.slot n
      let c := s.ie.counters
      (l ≠ x.load → ∀ ok, exec (.verifyComplete ok data) s = .next
        { s with ie := { s.ie with inFlight := none, counters := { c with staleCompletions := satInc c.staleCompletions } } }) ∧
      (∀ r rep, l = x.load → x.held = some r → r.st = .verifying rep →
        let told (isMatch : Bool) (io : Io) : Io :=
          let raised := raise (.verifyDone n isMatch) io
          match rep with
          | .controller => raised
          | .node m q => (sendImage m { query := q, id := r.img.id, body := .verifyReport isMatch } raised).2
        let put (r' : SlotRec) : ImageEngine := (ended s.ie).setSlot n { x with held := some r' }
        (crc32 data = r.img.crc → exec (.verifyComplete true data) s = .next
          { s with io := told true s.io, ie := put { r with st := .verified } }) ∧
        (n = stage → crc32 data ≠ r.img.crc →
          let r' : SlotRec :=
            { r with map := List.replicate r.img.count false, received := 0, failures := 0, st := .erasing }
          exec (.verifyComplete true data) s = .next
            { s with io := told false s.io, ie := { put r' with pendingOp := some .erase } }) ∧
        exec (.verifyComplete false data) s = .next
          { s with io := told false (raise (.slotFailed n .read) s.io), ie := put { r with st := .failed } })) ∧
    (∀ m l b n live ok data, s.ie.inFlight = some (.blockRead m l b n live) →
      let freed : State := { s with io := freeCells n s.io, ie := ended s.ie }
      let f (d : Dist) : QFrame :=
        { hdr := some { src := s.io.fp.nodeId, dst := 0 }, cls := 3, cells := n
          content := .image { query := 0, id := d.img.id, body := .block b (crc16 data) data } }
      (live = false → exec (.blockReadComplete ok data) s = .next freed) ∧
      ((∀ d, s.ie.dist = some d → d.phase = .done ∨ d.phase = .aborted) →
        exec (.blockReadComplete ok data) s = .next freed) ∧
      (∀ d, live = true → s.ie.dist = some d → d.phase ≠ .done → d.phase ≠ .aborted →
        (d.phase = .stream →
          queueCells (s.io.port .fp3).queue.c3 + n ≤ (s.io.port .fp3).limit.c3 →
          exec (.blockReadComplete true data) s = .next
            { s with
              io := s.io.onPort .fp3 fun e =>
                { e with queue := { e.queue with c3 := e.queue.c3 ++ [f d] }, choiceDue := true }
              ie := { s.ie with
                inFlight := none, dist := some { d with streamPos := b + 1 }
                counters := { s.ie.counters with blocksSent := satInc s.ie.counters.blocksSent } } }) ∧
        (d.phase = .resend →
          queueCells (s.io.port .fp3).queue.c3 + n ≤ (s.io.port .fp3).limit.c3 →
          exec (.blockReadComplete true data) s = .next
            { s with
              io := s.io.onPort .fp3 fun e =>
                { e with queue := { e.queue with c3 := e.queue.c3 ++ [f d] }, choiceDue := true }
              ie := { s.ie with
                inFlight := none, dist := some { d with resend := d.resend.set b false }
                counters := { s.ie.counters with blocksSent := satInc s.ie.counters.blocksSent } } }) ∧
        ((s.io.port .fp3).limit.c3 < queueCells (s.io.port .fp3).queue.c3 + n →
          let passed (x : Dist) : State :=
            { s with
              io := raise (.queueDrop .fp3 3 n)
                (countEs .fp3 (fun k => { k with queueFull := satInc k.queueFull }) (freeCells n s.io))
              ie := { s.ie with inFlight := none, dist := some x } }
          (d.phase = .stream → exec (.blockReadComplete true data) s = .next (passed { d with streamPos := b + 1 })) ∧
          (d.phase = .resend →
            exec (.blockReadComplete true data) s = .next (passed { d with resend := d.resend.set b false }))) ∧
        (∃ t, exec (.blockReadComplete false data) s = .next t ∧
          t.ie.dist = some { d with phase := .aborted, query := none } ∧ t.ie.inFlight = none ∧
          (t.io.cu.events.get .image).pending = true) ∧
        exec (.blockReadComplete false data) s = .next (distAborted .read d freed))) ∧
    (∀ r c, (s.ie.slot stage).held = some r → r.st = .armed c →
      (¬ 0 ≤ (s.mt - c).toInt → exec .imageSwitch s = .next s) ∧
      (0 ≤ (s.mt - c).toInt → ∃ t, exec .imageSwitch s = .next t ∧
        t.ie = { s.ie with
          slot0 := if stage then { load := (s.ie.slot0.load + 1) % 256, held := none }
            else { s.ie.slot0 with held := some { r with st := .switched c } }
          slot1 := if stage then { s.ie.slot1 with held := some { r with st := .switched c } }
            else { load := (s.ie.slot1.load + 1) % 256, held := none }
          active := stage, switchOut := some stage } ∧
        t.io = raise (.switched stage r.img.id c) s.io ∧ t.tb = s.tb ∧ t.cl = s.cl ∧ t.su = s.su ∧ t.hu = s.hu ∧
        t.se = s.se)) ∧
    ((∀ r c, (s.ie.slot stage).held = some r → r.st ≠ .armed c) → exec .imageSwitch s = .next s)
end
end

