-- ==== Sys2Proof/Laws/State.lean ====
section
/-! SUPPORT. What each update of one unit leaves of every field, and the members of the fixed groups after a write. Every
lemma on a field holds by definition. -/

namespace Sys2Proof.Machine

/-! ## The units of a state -/

@[simp] theorem onIo_pending (f : Io → Io) (s : State) : (s.onIo f).pending = s.pending := rfl
@[simp] theorem onIo_io (f : Io → Io) (s : State) : (s.onIo f).io = f s.io := rfl
@[simp] theorem onIo_tb (f : Io → Io) (s : State) : (s.onIo f).tb = s.tb := rfl
@[simp] theorem onIo_cl (f : Io → Io) (s : State) : (s.onIo f).cl = s.cl := rfl
@[simp] theorem onIo_su (f : Io → Io) (s : State) : (s.onIo f).su = s.su := rfl
@[simp] theorem onIo_hu (f : Io → Io) (s : State) : (s.onIo f).hu = s.hu := rfl
@[simp] theorem onIo_se (f : Io → Io) (s : State) : (s.onIo f).se = s.se := rfl
@[simp] theorem onIo_ie (f : Io → Io) (s : State) : (s.onIo f).ie = s.ie := rfl

@[simp] theorem onTb_pending (f : TimeBase → TimeBase) (s : State) : (s.onTb f).pending = s.pending := rfl
@[simp] theorem onTb_io (f : TimeBase → TimeBase) (s : State) : (s.onTb f).io = s.io := rfl
@[simp] theorem onTb_tb (f : TimeBase → TimeBase) (s : State) : (s.onTb f).tb = f s.tb := rfl
@[simp] theorem onTb_cl (f : TimeBase → TimeBase) (s : State) : (s.onTb f).cl = s.cl := rfl
@[simp] theorem onTb_su (f : TimeBase → TimeBase) (s : State) : (s.onTb f).su = s.su := rfl
@[simp] theorem onTb_hu (f : TimeBase → TimeBase) (s : State) : (s.onTb f).hu = s.hu := rfl
@[simp] theorem onTb_se (f : TimeBase → TimeBase) (s : State) : (s.onTb f).se = s.se := rfl
@[simp] theorem onTb_ie (f : TimeBase → TimeBase) (s : State) : (s.onTb f).ie = s.ie := rfl

@[simp] theorem onCl_pending (f : Classifier → Classifier) (s : State) : (s.onCl f).pending = s.pending := rfl
@[simp] theorem onCl_io (f : Classifier → Classifier) (s : State) : (s.onCl f).io = s.io := rfl
@[simp] theorem onCl_tb (f : Classifier → Classifier) (s : State) : (s.onCl f).tb = s.tb := rfl
@[simp] theorem onCl_cl (f : Classifier → Classifier) (s : State) : (s.onCl f).cl = f s.cl := rfl
@[simp] theorem onCl_su (f : Classifier → Classifier) (s : State) : (s.onCl f).su = s.su := rfl
@[simp] theorem onCl_hu (f : Classifier → Classifier) (s : State) : (s.onCl f).hu = s.hu := rfl
@[simp] theorem onCl_se (f : Classifier → Classifier) (s : State) : (s.onCl f).se = s.se := rfl
@[simp] theorem onCl_ie (f : Classifier → Classifier) (s : State) : (s.onCl f).ie = s.ie := rfl

@[simp] theorem onSu_pending (f : StationUnit → StationUnit) (s : State) : (s.onSu f).pending = s.pending := rfl
@[simp] theorem onSu_io (f : StationUnit → StationUnit) (s : State) : (s.onSu f).io = s.io := rfl
@[simp] theorem onSu_tb (f : StationUnit → StationUnit) (s : State) : (s.onSu f).tb = s.tb := rfl
@[simp] theorem onSu_cl (f : StationUnit → StationUnit) (s : State) : (s.onSu f).cl = s.cl := rfl
@[simp] theorem onSu_su (f : StationUnit → StationUnit) (s : State) : (s.onSu f).su = f s.su := rfl
@[simp] theorem onSu_hu (f : StationUnit → StationUnit) (s : State) : (s.onSu f).hu = s.hu := rfl
@[simp] theorem onSu_se (f : StationUnit → StationUnit) (s : State) : (s.onSu f).se = s.se := rfl
@[simp] theorem onSu_ie (f : StationUnit → StationUnit) (s : State) : (s.onSu f).ie = s.ie := rfl

@[simp] theorem onHu_pending (f : HandoffUnit → HandoffUnit) (s : State) : (s.onHu f).pending = s.pending := rfl
@[simp] theorem onHu_io (f : HandoffUnit → HandoffUnit) (s : State) : (s.onHu f).io = s.io := rfl
@[simp] theorem onHu_tb (f : HandoffUnit → HandoffUnit) (s : State) : (s.onHu f).tb = s.tb := rfl
@[simp] theorem onHu_cl (f : HandoffUnit → HandoffUnit) (s : State) : (s.onHu f).cl = s.cl := rfl
@[simp] theorem onHu_su (f : HandoffUnit → HandoffUnit) (s : State) : (s.onHu f).su = s.su := rfl
@[simp] theorem onHu_hu (f : HandoffUnit → HandoffUnit) (s : State) : (s.onHu f).hu = f s.hu := rfl
@[simp] theorem onHu_se (f : HandoffUnit → HandoffUnit) (s : State) : (s.onHu f).se = s.se := rfl
@[simp] theorem onHu_ie (f : HandoffUnit → HandoffUnit) (s : State) : (s.onHu f).ie = s.ie := rfl

@[simp] theorem onSe_pending (f : ScheduleEngine → ScheduleEngine) (s : State) : (s.onSe f).pending = s.pending := rfl
@[simp] theorem onSe_io (f : ScheduleEngine → ScheduleEngine) (s : State) : (s.onSe f).io = s.io := rfl
@[simp] theorem onSe_tb (f : ScheduleEngine → ScheduleEngine) (s : State) : (s.onSe f).tb = s.tb := rfl
@[simp] theorem onSe_cl (f : ScheduleEngine → ScheduleEngine) (s : State) : (s.onSe f).cl = s.cl := rfl
@[simp] theorem onSe_su (f : ScheduleEngine → ScheduleEngine) (s : State) : (s.onSe f).su = s.su := rfl
@[simp] theorem onSe_hu (f : ScheduleEngine → ScheduleEngine) (s : State) : (s.onSe f).hu = s.hu := rfl
@[simp] theorem onSe_se (f : ScheduleEngine → ScheduleEngine) (s : State) : (s.onSe f).se = f s.se := rfl
@[simp] theorem onSe_ie (f : ScheduleEngine → ScheduleEngine) (s : State) : (s.onSe f).ie = s.ie := rfl

@[simp] theorem onIe_pending (f : ImageEngine → ImageEngine) (s : State) : (s.onIe f).pending = s.pending := rfl
@[simp] theorem onIe_io (f : ImageEngine → ImageEngine) (s : State) : (s.onIe f).io = s.io := rfl
@[simp] theorem onIe_tb (f : ImageEngine → ImageEngine) (s : State) : (s.onIe f).tb = s.tb := rfl
@[simp] theorem onIe_cl (f : ImageEngine → ImageEngine) (s : State) : (s.onIe f).cl = s.cl := rfl
@[simp] theorem onIe_su (f : ImageEngine → ImageEngine) (s : State) : (s.onIe f).su = s.su := rfl
@[simp] theorem onIe_hu (f : ImageEngine → ImageEngine) (s : State) : (s.onIe f).hu = s.hu := rfl
@[simp] theorem onIe_se (f : ImageEngine → ImageEngine) (s : State) : (s.onIe f).se = s.se := rfl
@[simp] theorem onIe_ie (f : ImageEngine → ImageEngine) (s : State) : (s.onIe f).ie = f s.ie := rfl

theorem onIo_onIo (f g : Io → Io) (s : State) : (s.onIo f).onIo g = s.onIo fun io => g (f io) := rfl

@[simp] theorem node_onTb (f : TimeBase → TimeBase) (s : State) : (s.onTb f).node = s.node := rfl

@[simp] theorem mt_onIo (f : Io → Io) (s : State) : (s.onIo f).mt = s.mt := rfl

@[simp] theorem entry_onIo (f : Io → Io) (s : State) (a : Addr) : (s.onIo f).entry a = s.entry a := rfl

/-! ## The units of `Io` -/

@[simp] theorem onFp_fp (f : FramePath → FramePath) (io : Io) : (io.onFp f).fp = f io.fp := rfl
@[simp] theorem onFp_es (f : FramePath → FramePath) (io : Io) : (io.onFp f).es = io.es := rfl
@[simp] theorem onFp_cu (f : FramePath → FramePath) (io : Io) : (io.onFp f).cu = io.cu := rfl
@[simp] theorem onFp_freeCount (f : FramePath → FramePath) (io : Io) : (io.onFp f).freeCount = io.freeCount := rfl

@[simp] theorem onEs_fp (f : Egress → Egress) (io : Io) : (io.onEs f).fp = io.fp := rfl
@[simp] theorem onEs_es (f : Egress → Egress) (io : Io) : (io.onEs f).es = f io.es := rfl
@[simp] theorem onEs_cu (f : Egress → Egress) (io : Io) : (io.onEs f).cu = io.cu := rfl
@[simp] theorem onEs_freeCount (f : Egress → Egress) (io : Io) : (io.onEs f).freeCount = io.freeCount := rfl

@[simp] theorem onCu_fp (f : ControlUnit → ControlUnit) (io : Io) : (io.onCu f).fp = io.fp := rfl
@[simp] theorem onCu_es (f : ControlUnit → ControlUnit) (io : Io) : (io.onCu f).es = io.es := rfl
@[simp] theorem onCu_cu (f : ControlUnit → ControlUnit) (io : Io) : (io.onCu f).cu = f io.cu := rfl
@[simp] theorem onCu_freeCount (f : ControlUnit → ControlUnit) (io : Io) : (io.onCu f).freeCount = io.freeCount := rfl

@[simp] theorem onPort_fp (p : Port) (f : PortEgress → PortEgress) (io : Io) : (io.onPort p f).fp = io.fp := rfl
@[simp] theorem onPort_cu (p : Port) (f : PortEgress → PortEgress) (io : Io) : (io.onPort p f).cu = io.cu := rfl
@[simp] theorem onPort_freeCount (p : Port) (f : PortEgress → PortEgress) (io : Io) :
    (io.onPort p f).freeCount = io.freeCount := rfl
@[simp] theorem onPort_es_beaconPos (p : Port) (f : PortEgress → PortEgress) (io : Io) :
    (io.onPort p f).es.beaconPos = io.es.beaconPos := rfl
@[simp] theorem onPort_es_active (p : Port) (f : PortEgress → PortEgress) (io : Io) :
    (io.onPort p f).es.active = io.es.active := rfl
@[simp] theorem onPort_es_staged (p : Port) (f : PortEgress → PortEgress) (io : Io) :
    (io.onPort p f).es.staged = io.es.staged := rfl
@[simp] theorem onPort_es_pending (p : Port) (f : PortEgress → PortEgress) (io : Io) :
    (io.onPort p f).es.pending = io.es.pending := rfl
@[simp] theorem onPort_es_peers (p : Port) (f : PortEgress → PortEgress) (io : Io) :
    (io.onPort p f).es.peers = io.es.peers := rfl
@[simp] theorem onPort_es_overhead (p : Port) (f : PortEgress → PortEgress) (io : Io) :
    (io.onPort p f).es.overhead = io.es.overhead := rfl
@[simp] theorem onPort_es_guardTime (p : Port) (f : PortEgress → PortEgress) (io : Io) :
    (io.onPort p f).es.guardTime = io.es.guardTime := rfl
@[simp] theorem onPort_es_seen (p : Port) (f : PortEgress → PortEgress) (io : Io) :
    (io.onPort p f).es.seen = io.es.seen := rfl
@[simp] theorem bumpFree_fp (io : Io) : io.bumpFree.fp = io.fp := rfl
@[simp] theorem bumpFree_es (io : Io) : io.bumpFree.es = io.es := rfl
@[simp] theorem bumpFree_cu (io : Io) : io.bumpFree.cu = io.cu := rfl
@[simp] theorem bumpFree_freeCount (io : Io) : io.bumpFree.freeCount = io.freeCount + 1 := rfl
@[simp] theorem takeCells_fp_nodeId (n : Nat) (io : Io) : (takeCells n io).fp.nodeId = io.fp.nodeId := rfl
@[simp] theorem freeCells_fp_nodeId (n : Nat) (io : Io) : (freeCells n io).fp.nodeId = io.fp.nodeId := rfl
@[simp] theorem takeCells_fp_gateway (n : Nat) (io : Io) : (takeCells n io).fp.gateway = io.fp.gateway := rfl
@[simp] theorem freeCells_fp_gateway (n : Nat) (io : Io) : (freeCells n io).fp.gateway = io.fp.gateway := rfl
@[simp] theorem takeCells_fp_gatewayId (n : Nat) (io : Io) : (takeCells n io).fp.gatewayId = io.fp.gatewayId := rfl
@[simp] theorem freeCells_fp_gatewayId (n : Nat) (io : Io) : (freeCells n io).fp.gatewayId = io.fp.gatewayId := rfl
@[simp] theorem takeCells_es (n : Nat) (io : Io) : (takeCells n io).es = io.es := rfl
@[simp] theorem takeCells_cu (n : Nat) (io : Io) : (takeCells n io).cu = io.cu := rfl
@[simp] theorem takeCells_freeCount (n : Nat) (io : Io) : (takeCells n io).freeCount = io.freeCount := rfl
@[simp] theorem freeCells_es (n : Nat) (io : Io) : (freeCells n io).es = io.es := rfl
@[simp] theorem freeCells_cu (n : Nat) (io : Io) : (freeCells n io).cu = io.cu := rfl
@[simp] theorem freeCells_freeCount (n : Nat) (io : Io) : (freeCells n io).freeCount = io.freeCount := rfl
@[simp] theorem takeCells_freeCells (n : Nat) (io : Io) : (takeCells n io).fp.freeCells = io.fp.freeCells - n := rfl
@[simp] theorem freeCells_freeCells (n : Nat) (io : Io) : (freeCells n io).fp.freeCells = io.fp.freeCells + n := rfl
@[simp] theorem freeCells_lowestFree (n : Nat) (io : Io) : (freeCells n io).fp.lowestFree = io.fp.lowestFree := rfl
@[simp] theorem countFp_es (f : FpCounters → FpCounters) (io : Io) : (countFp f io).es = io.es := rfl
@[simp] theorem countFp_cu (f : FpCounters → FpCounters) (io : Io) : (countFp f io).cu = io.cu := rfl
@[simp] theorem countFp_freeCount (f : FpCounters → FpCounters) (io : Io) :
    (countFp f io).freeCount = io.freeCount := rfl
@[simp] theorem countFp_fp_nodeId (f : FpCounters → FpCounters) (io : Io) :
    (countFp f io).fp.nodeId = io.fp.nodeId := rfl
@[simp] theorem countFp_fp_gateway (f : FpCounters → FpCounters) (io : Io) :
    (countFp f io).fp.gateway = io.fp.gateway := rfl
@[simp] theorem countFp_fp_gatewayId (f : FpCounters → FpCounters) (io : Io) :
    (countFp f io).fp.gatewayId = io.fp.gatewayId := rfl
@[simp] theorem countFp_fp_freeCells (f : FpCounters → FpCounters) (io : Io) :
    (countFp f io).fp.freeCells = io.fp.freeCells := rfl
@[simp] theorem countFp_fp_lowestFree (f : FpCounters → FpCounters) (io : Io) :
    (countFp f io).fp.lowestFree = io.fp.lowestFree := rfl
@[simp] theorem countCu_fp (f : CuCounters → CuCounters) (io : Io) : (countCu f io).fp = io.fp := rfl
@[simp] theorem countCu_es (f : CuCounters → CuCounters) (io : Io) : (countCu f io).es = io.es := rfl
@[simp] theorem countCu_freeCount (f : CuCounters → CuCounters) (io : Io) :
    (countCu f io).freeCount = io.freeCount := rfl
@[simp] theorem countCu_cu_admission (f : CuCounters → CuCounters) (io : Io) :
    (countCu f io).cu.admission = io.cu.admission := rfl
@[simp] theorem countCu_cu_queue (f : CuCounters → CuCounters) (io : Io) :
    (countCu f io).cu.queue = io.cu.queue := rfl
@[simp] theorem countCu_cu_reg (f : CuCounters → CuCounters) (io : Io) : (countCu f io).cu.reg = io.cu.reg := rfl
@[simp] theorem countCu_cu_events (f : CuCounters → CuCounters) (io : Io) :
    (countCu f io).cu.events = io.cu.events := rfl

/-! ## The fixed groups -/

@[simp] theorem PerPort.get_set_self {α : Type} (v : PerPort α) (p : Port) (a : α) : (v.set p a).get p = a := by
  cases p <;> rfl

theorem PerPort.get_set_of_ne {α : Type} (v : PerPort α) {p q : Port} (a : α) (h : p ≠ q) :
    (v.set p a).get q = v.get q := by
  cases p <;> cases q <;> first | rfl | exact absurd rfl h

@[simp] theorem PerCategory.get_set_self {α : Type} (v : PerCategory α) (c : Category) (a : α) :
    (v.set c a).get c = a := by
  cases c <;> rfl

theorem PerCategory.get_set_of_ne {α : Type} (v : PerCategory α) {c d : Category} (a : α) (h : c ≠ d) :
    (v.set c a).get d = v.get d := by
  cases c <;> cases d <;> first | rfl | exact absurd rfl h

@[simp] theorem PerClass.get_set_self {α : Type} (v : PerClass α) (k : Nat) (a : α) : (v.set k a).get k = a :=
  match k with
  | 0 => rfl
  | 1 => rfl
  | 2 => rfl
  | _ + 3 => rfl

@[simp] theorem port_onPort_self (p : Port) (f : PortEgress → PortEgress) (io : Io) :
    (io.onPort p f).port p = f (io.port p) := by
  simp [Io.port, Io.onPort]

theorem port_onPort_of_ne {p q : Port} (f : PortEgress → PortEgress) (io : Io) (h : p ≠ q) :
    (io.onPort p f).port q = io.port q := by
  simp [Io.port, Io.onPort, PerPort.get_set_of_ne _ _ h]

end Sys2Proof.Machine
end

