-- ==== Sys2Proof/Laws/Distributor.lean ====
section
/-! SUPPORT. What the operations over the distribution record can do, said once: an operation on the record of a state that
holds one, the search for the next target, and the hints of a list taken in order. -/

namespace Sys2Proof.Machine

/-! ## The distribution record -/

theorem withDist_of_some {f : Dist → State → State} {s : State} {d : Dist} (h : s.ie.dist = some d) :
    withDist f s = f d s := by simp [withDist, h]

theorem withDist_of_none {f : Dist → State → State} {s : State} (h : s.ie.dist = none) : withDist f s = s := by
  simp [withDist, h]

/-- A change of the record of a state that holds one changes nothing else. -/
theorem onDist_of_some {f : Dist → Dist} {s : State} {d : Dist} (h : s.ie.dist = some d) :
    s.onDist f = { s with ie := { s.ie with dist := some (f d) } } := by simp [State.onDist, State.onIe, h]

theorem onDist_of_none {f : Dist → Dist} {s : State} (h : s.ie.dist = none) : s.onDist f = s := by
  simp only [State.onDist, State.onIe, h, Option.map_none]
  rw [← h]

@[simp] theorem onDist_dist (f : Dist → Dist) (s : State) : (s.onDist f).ie.dist = s.ie.dist.map f := rfl

@[simp] theorem onDist_tb (f : Dist → Dist) (s : State) : (s.onDist f).tb = s.tb := rfl

@[simp] theorem onDist_io (f : Dist → Dist) (s : State) : (s.onDist f).io = s.io := rfl

/-- A change of the target at a position that holds one. -/
theorem onTarget_of_some {d : Dist} {i : Nat} {x : Target} (f : Target → Target) (h : d.targets[i]? = some x) :
    d.onTarget i f = { d with targets := d.targets.set i (f x) } := by
  have hl : d.targets.modify i f = d.targets.set i (f x) := by
    apply List.ext_getElem?
    intro j
    obtain ⟨hi, rfl⟩ := List.getElem?_eq_some_iff.1 h
    rw [List.getElem?_modify, List.getElem?_set]
    split
    · next he => subst he; simp [hi]
    · simp
  rw [Dist.onTarget, hl]

/-! ## The next target -/

/-- The first target at or after `start` that satisfies a condition, with its position. -/
theorem nextTarget_eq_some {p : Target → Bool} {start j : Nat} {d : Dist} {x : Target} :
    nextTarget p start d = some (j, x) ↔
      start ≤ j ∧ d.targets[j]? = some x ∧ p x = true ∧
        ∀ k y, start ≤ k → k < j → d.targets[k]? = some y → p y = false := by
  unfold nextTarget
  rw [Option.map_eq_some_iff]
  constructor
  · rintro ⟨⟨x', j'⟩, h, he⟩
    cases he
    obtain ⟨hp, i, hi, hx, hn⟩ := List.find?_eq_some_iff_getElem.1 h
    rw [List.getElem_drop, List.getElem_zipIdx] at hx
    simp only [List.length_drop, List.length_zipIdx] at hi
    cases hx
    refine ⟨by omega, by simp, hp, ?_⟩
    intro k y hk hk' hy
    have hl : k < d.targets.length := (List.getElem?_eq_some_iff.1 hy).1
    have := hn (k - start) (by omega)
    rw [List.getElem_drop, List.getElem_zipIdx] at this
    have he : start + (k - start) = k := by omega
    rw [List.getElem?_eq_getElem hl] at hy
    cases hy
    simpa [he] using this
  · rintro ⟨hs, hx, hp, hn⟩
    obtain ⟨hl, rfl⟩ := List.getElem?_eq_some_iff.1 hx
    refine ⟨(d.targets[j], j), List.find?_eq_some_iff_getElem.2 ⟨hp, j - start, ?_, ?_, ?_⟩, rfl⟩
    · simp only [List.length_drop, List.length_zipIdx]
      omega
    · rw [List.getElem_drop, List.getElem_zipIdx]
      have he : start + (j - start) = j := by omega
      simp [he]
    · intro i hi
      rw [List.getElem_drop, List.getElem_zipIdx]
      have := hn (start + i) _ (by omega) (by omega) (List.getElem?_eq_getElem (by omega))
      simp [this]

/-- There is no next target exactly where none satisfies the condition. -/
theorem nextTarget_eq_none {p : Target → Bool} {start : Nat} {d : Dist} :
    nextTarget p start d = none ↔ ∀ k y, start ≤ k → d.targets[k]? = some y → p y = false := by
  unfold nextTarget
  rw [Option.map_eq_none_iff, List.find?_eq_none]
  constructor
  · intro h k y hk hy
    obtain ⟨hl, rfl⟩ := List.getElem?_eq_some_iff.1 hy
    have hm : (d.targets[k], k) ∈ d.targets.zipIdx.drop start := by
      refine List.mem_iff_getElem.2 ⟨k - start, ?_, ?_⟩
      · simp only [List.length_drop, List.length_zipIdx]
        omega
      · rw [List.getElem_drop, List.getElem_zipIdx]
        have he : start + (k - start) = k := by omega
        simp [he]
    simpa using h _ hm
  · rintro h ⟨y, k⟩ hm
    obtain ⟨i, hi, he⟩ := List.mem_iff_getElem.1 hm
    rw [List.getElem_drop, List.getElem_zipIdx] at he
    simp only [List.length_drop, List.length_zipIdx] at hi
    cases he
    have := h (start + i) _ (by omega) (List.getElem?_eq_getElem (by omega))
    simp [this]

/-! ## Hints -/

@[simp] theorem takeHints_nil (a : Addr) (s : State) : takeHints a [] s = s := rfl

@[simp] theorem takeHints_cons (a : Addr) (h : Hint) (hs : List Hint) (s : State) :
    takeHints a (h :: hs) s = takeHints a hs (takeHint a s h) := rfl

end Sys2Proof.Machine
end

