-- ==== Sys2Proof/Laws/Ops.lean ====
section
/-! SUPPORT. What the shared operations can do, said once: they keep what `Io.Kept` lists, and they account for every
cell of the pool (R29, R30). -/

namespace Sys2Proof.Machine

/-! ## What is kept -/

theorem Io.Kept.refl (a : Io) : Io.Kept a a where
  nodeId := rfl
  gateway := rfl
  gatewayId := rfl
  beaconPos := rfl
  active := rfl
  staged := rfl
  pending := rfl
  peers := rfl
  overhead := rfl
  guardTime := rfl
  seen := rfl
  queue _ := rfl
  credit _ := rfl
  limit _ := rfl
  written _ := rfl
  inUse _ := rfl
  tx _ := rfl
  mgmt _ := List.prefix_rfl
  admission := rfl
  control := rfl
  reg := rfl
  enable _ := rfl
  freeCount := rfl

theorem Io.Kept.trans {a b c : Io} (h : Io.Kept a b) (k : Io.Kept b c) : Io.Kept a c where
  nodeId := k.nodeId.trans h.nodeId
  gateway := k.gateway.trans h.gateway
  gatewayId := k.gatewayId.trans h.gatewayId
  beaconPos := k.beaconPos.trans h.beaconPos
  active := k.active.trans h.active
  staged := k.staged.trans h.staged
  pending := k.pending.trans h.pending
  peers := k.peers.trans h.peers
  overhead := k.overhead.trans h.overhead
  guardTime := k.guardTime.trans h.guardTime
  seen := k.seen.trans h.seen
  queue p := (k.queue p).trans (h.queue p)
  credit p := (k.credit p).trans (h.credit p)
  limit p := (k.limit p).trans (h.limit p)
  written p := (k.written p).trans (h.written p)
  inUse p := (k.inUse p).trans (h.inUse p)
  tx p := (k.tx p).trans (h.tx p)
  mgmt p := (h.mgmt p).trans (k.mgmt p)
  admission := k.admission.trans h.admission
  control := k.control.trans h.control
  reg := k.reg.trans h.reg
  enable c := (k.enable c).trans (h.enable c)
  freeCount := k.freeCount.trans h.freeCount

/-- An update of the counts of the Frame Path keeps the rest. -/
theorem kept_onFp (f : FramePath → FramePath) (io : Io) (h1 : (f io.fp).nodeId = io.fp.nodeId)
    (h2 : (f io.fp).gateway = io.fp.gateway) (h3 : (f io.fp).gatewayId = io.fp.gatewayId) :
    Io.Kept io (io.onFp f) :=
  { Io.Kept.refl io with nodeId := h1, gateway := h2, gatewayId := h3 }

theorem kept_takeCells (n : Nat) (io : Io) : Io.Kept io (takeCells n io) := kept_onFp _ io rfl rfl rfl

theorem kept_freeCells (n : Nat) (io : Io) : Io.Kept io (freeCells n io) := kept_onFp _ io rfl rfl rfl

theorem kept_countFp (f : FpCounters → FpCounters) (io : Io) : Io.Kept io (countFp f io) := kept_onFp _ io rfl rfl rfl

theorem kept_countCu (f : CuCounters → CuCounters) (io : Io) : Io.Kept io (countCu f io) := { Io.Kept.refl io with }

/-- What an update of one port keeps of every field, when it keeps the field at that port. -/
theorem onPort_field {α : Type} (g : PortEgress → α) (p q : Port) (f : PortEgress → PortEgress) (io : Io)
    (h : g (f (io.port p)) = g (io.port p)) : g ((io.onPort p f).port q) = g (io.port q) := by
  by_cases e : p = q
  · subst e
    simpa using h
  · rw [port_onPort_of_ne _ _ e]

/-- An update of one port's counters, choice mark and management tail keeps the rest. -/
theorem kept_onPort (p : Port) (f : PortEgress → PortEgress) (io : Io)
    (hq : (f (io.port p)).queue = (io.port p).queue) (hc : (f (io.port p)).credit = (io.port p).credit)
    (hl : (f (io.port p)).limit = (io.port p).limit) (hw : (f (io.port p)).written = (io.port p).written)
    (hi : (f (io.port p)).inUse = (io.port p).inUse) (ht : (f (io.port p)).tx = (io.port p).tx)
    (hm : (io.port p).mgmt <+: (f (io.port p)).mgmt) : Io.Kept io (io.onPort p f) :=
  { Io.Kept.refl io with
    queue := fun q => onPort_field (·.queue) p q f io hq
    credit := fun q => onPort_field (·.credit) p q f io hc
    limit := fun q => onPort_field (·.limit) p q f io hl
    written := fun q => onPort_field (·.written) p q f io hw
    inUse := fun q => onPort_field (·.inUse) p q f io hi
    tx := fun q => onPort_field (·.tx) p q f io ht
    mgmt := fun q => by
      by_cases e : p = q
      · subst e
        simpa using hm
      · exact ⟨[], by rw [port_onPort_of_ne _ _ e, List.append_nil]⟩ }

theorem kept_countEs (p : Port) (f : EsCounters → EsCounters) (io : Io) : Io.Kept io (countEs p f io) :=
  kept_onPort p _ io rfl rfl rfl rfl rfl rfl List.prefix_rfl

@[simp] theorem EventRec.note_enable (e : Event) (r : EventRec) : (r.note e).enable = r.enable := by
  unfold EventRec.note
  split <;> rfl

theorem kept_recordEvent (e : Event) (io : Io) : Io.Kept io (recordEvent e io) :=
  { Io.Kept.refl io with
    enable := fun c => by
      by_cases h : e.category = c
      · subst h
        simp [recordEvent]
      · simp [recordEvent, PerCategory.get_set_of_ne _ _ h] }

section
variable {onDrop : Event → Io → Io} (hd : ∀ e io, Io.Kept io (onDrop e io))
include hd

theorem kept_refuseCells (p : Port) (k : Kind) (n : Nat) (io : Io) : Io.Kept io (refuseCells onDrop p k n io) :=
  (kept_countFp _ io).trans (hd _ _)

theorem kept_allocMgmtWith (p : Port) (k : Kind) (n : Nat) (io : Io) : Io.Kept io (allocMgmtWith onDrop p k n io).2 := by
  unfold allocMgmtWith
  split
  · exact kept_takeCells n io
  · exact kept_refuseCells hd p k n io

theorem kept_placeMgmtWith (p : Port) (f : QFrame) (io : Io) : Io.Kept io (placeMgmtWith onDrop p f io).2 := by
  unfold placeMgmtWith
  split
  · exact kept_onPort p (fun e => { e with mgmt := e.mgmt ++ [f], choiceDue := true }) io rfl rfl rfl rfl rfl rfl
      (List.prefix_append _ _)
  · exact ((kept_freeCells f.cells io).trans (kept_countEs p _ _)).trans (hd _ _)

theorem kept_sendMgmtWith (p : Port) (f : QFrame) (io : Io) : Io.Kept io (sendMgmtWith onDrop p f io).2 := by
  have h := kept_allocMgmtWith hd p f.kind f.cells io
  unfold sendMgmtWith
  dsimp only
  split
  · exact h.trans (kept_placeMgmtWith hd p f _)
  · exact h

theorem kept_sendNoticeWith (c : Category) (io : Io) : Io.Kept io (sendNoticeWith onDrop c io) := by
  unfold sendNoticeWith
  split
  · dsimp only
    split
    · exact (kept_sendMgmtWith hd _ _ io).trans (kept_countCu _ _)
    · exact (kept_sendMgmtWith hd _ _ io).trans (kept_countCu _ _)
  · exact Io.Kept.refl io

theorem kept_raiseWith (e : Event) (io : Io) : Io.Kept io (raiseWith onDrop e io) := by
  unfold raiseWith
  split
  · exact kept_recordEvent e io
  · split
    · exact (kept_recordEvent e io).trans (kept_sendNoticeWith hd _ _)
    · exact kept_recordEvent e io

end

theorem kept_raiseBuffer (e : Event) (io : Io) : Io.Kept io (raiseBuffer e io) := kept_raiseWith kept_recordEvent e io

theorem kept_noticeDrop (c : Category) (e : Event) (io : Io) : Io.Kept io (noticeDrop c e io) := by
  cases c
  case control => exact Io.Kept.refl io
  all_goals exact kept_raiseBuffer e io

/-- Raising an event keeps what `Io.Kept` lists (R177). -/
theorem kept_raise (e : Event) (io : Io) : Io.Kept io (raise e io) := kept_raiseWith (kept_noticeDrop _) e io

theorem kept_sendNotice (c : Category) (io : Io) : Io.Kept io (sendNotice c io) :=
  kept_sendNoticeWith (kept_noticeDrop c) c io

theorem kept_allocMgmt (p : Port) (k : Kind) (n : Nat) (io : Io) : Io.Kept io (allocMgmt p k n io).2 :=
  kept_allocMgmtWith kept_raise p k n io

theorem kept_placeMgmt (p : Port) (f : QFrame) (io : Io) : Io.Kept io (placeMgmt p f io).2 :=
  kept_placeMgmtWith kept_raise p f io

theorem kept_sendMgmt (p : Port) (f : QFrame) (io : Io) : Io.Kept io (sendMgmt p f io).2 :=
  kept_sendMgmtWith kept_raise p f io

theorem kept_allocData (p : Port) (n : Nat) (io : Io) : Io.Kept io (allocData p n io).2 := by
  unfold allocData
  split
  · exact kept_takeCells n io
  · exact kept_refuseCells kept_raise p .data n io

theorem kept_loseResponse (io : Io) : Io.Kept io (loseResponse io) := kept_countCu _ io

/-- Answering a request keeps what `Io.Kept` lists (R175). -/
theorem kept_respond (tag code : Nat) (st : Status) (recs : List (List Byte)) (io : Io) :
    Io.Kept io (respond tag code st recs io) := by
  have h := kept_countCu (fun c => { c with requestsExecuted := satInc c.requestsExecuted }) io
  unfold respond
  dsimp only
  split
  · refine h.trans (Io.Kept.trans ?_ ((kept_countFp _ _).trans (kept_loseResponse _)))
    split
    · exact (kept_takeCells _ _).trans (kept_freeCells _ _)
    · exact Io.Kept.refl _
  · split
    · exact h.trans (kept_sendMgmt _ _ _)
    · exact (h.trans (kept_sendMgmt _ _ _)).trans (kept_loseResponse _)

/-! ## The checks of a request -/

/-- A manage request the checks let through is answered as its rule says (R175 check 5). -/
theorem request_of_admitted {h : ReqHead} (ha : h.admitted) (code : Nat) (rule : State → Answer) (s : State) :
    request h code rule s = answered h code (rule s).status (rule s).records (rule s).state := by
  obtain ⟨hd, h0, hs⟩ := ha
  simp [request, hd, h0, hs, answered]

/-- A read request the checks let through is answered as its rule says, whatever its destination. -/
theorem request_of_readable {h : ReqHead} (ha : h.readable) {code : Nat} (hc : isRead code = true)
    (rule : State → Answer) (s : State) :
    request h code rule s = answered h code (rule s).status (rule s).records (rule s).state := by
  obtain ⟨hd, hs⟩ := ha
  simp [request, hd, hs, hc, answered]

/-! ## Cells -/

/-- The cells of the four ports' queues and transmitters. -/
theorem portCells_onPort (p : Port) (f : PortEgress → PortEgress) (io : Io) (n : Nat)
    (h : (f (io.port p)).cells = (io.port p).cells + n) :
    ((io.onPort p f).es.ports.toList.map PortEgress.cells).sum = (io.es.ports.toList.map PortEgress.cells).sum + n := by
  cases p <;>
    simp only [Io.onPort, Io.onEs, Io.port, PerPort.set, PerPort.get, PerPort.toList, List.map, List.sum_cons,
      List.sum_nil] at h ⊢ <;> omega

/-- An update of one port that adds `n` cells to it. -/
theorem cells_onPort (p : Port) (f : PortEgress → PortEgress) (io : Io) (n : Nat)
    (h : (f (io.port p)).cells = (io.port p).cells + n) : (io.onPort p f).cells = io.cells + n := by
  have e := portCells_onPort p f io n h
  simp only [Io.cells, Egress.beaconCells, onPort_fp, onPort_es_beaconPos] at e ⊢
  omega

theorem cells_takeCells (n : Nat) (io : Io) (h : n ≤ io.fp.freeCells) : (takeCells n io).cells + n = io.cells := by
  simp only [Io.cells, takeCells_freeCells, takeCells_es]
  omega

theorem cells_freeCells (n : Nat) (io : Io) : (freeCells n io).cells = io.cells + n := by
  simp only [Io.cells, freeCells_freeCells, freeCells_es]
  omega

theorem cells_countFp (f : FpCounters → FpCounters) (io : Io) : (countFp f io).cells = io.cells := rfl

theorem cells_countCu (f : CuCounters → CuCounters) (io : Io) : (countCu f io).cells = io.cells := rfl

theorem cells_countEs (p : Port) (f : EsCounters → EsCounters) (io : Io) : (countEs p f io).cells = io.cells :=
  cells_onPort p _ io 0 rfl

theorem cells_recordEvent (e : Event) (io : Io) : (recordEvent e io).cells = io.cells := rfl

@[simp] theorem queueCells_append (a b : List QFrame) : queueCells (a ++ b) = queueCells a + queueCells b := by
  simp [queueCells]

@[simp] theorem queueCells_cons (f : QFrame) (q : List QFrame) : queueCells (f :: q) = f.cells + queueCells q := by
  simp [queueCells]

@[simp] theorem queueCells_nil : queueCells [] = 0 := rfl

section
variable {onDrop : Event → Io → Io} (hd : ∀ e io, (onDrop e io).cells = io.cells)
include hd

theorem cells_refuseCells (p : Port) (k : Kind) (n : Nat) (io : Io) : (refuseCells onDrop p k n io).cells = io.cells :=
  hd _ _

/-- A granted allocation takes its cells out of the account; a refused one changes nothing (R29). -/
theorem cells_allocMgmtWith (p : Port) (k : Kind) (n : Nat) (io : Io) :
    (allocMgmtWith onDrop p k n io).2.cells + (if (allocMgmtWith onDrop p k n io).1 then n else 0) = io.cells := by
  unfold allocMgmtWith
  split
  · rename_i h
    simp only [if_true]
    exact cells_takeCells n io (by simpa [mgmtFits] using h)
  · simpa using cells_refuseCells hd p k n io

/-- A frame placed in a management queue brings its cells, taken or dropped (R30, R70). -/
theorem cells_placeMgmtWith (p : Port) (f : QFrame) (io : Io) :
    (placeMgmtWith onDrop p f io).2.cells = io.cells + f.cells := by
  unfold placeMgmtWith
  split
  · refine cells_onPort p _ io f.cells ?_
    simp only [PortEgress.cells, queueCells_append, queueCells_cons, queueCells_nil]
    omega
  · rw [hd, cells_countEs, cells_freeCells]

theorem cells_sendMgmtWith (p : Port) (f : QFrame) (io : Io) : (sendMgmtWith onDrop p f io).2.cells = io.cells := by
  have h := cells_allocMgmtWith hd p f.kind f.cells io
  unfold sendMgmtWith
  dsimp only
  split
  · rename_i e
    rw [cells_placeMgmtWith hd]
    simpa [e] using h
  · rename_i e
    simpa [e] using h

theorem cells_sendNoticeWith (c : Category) (io : Io) : (sendNoticeWith onDrop c io).cells = io.cells := by
  unfold sendNoticeWith
  split
  · dsimp only
    split <;> rw [cells_countCu, cells_sendMgmtWith hd]
  · rfl

theorem cells_raiseWith (e : Event) (io : Io) : (raiseWith onDrop e io).cells = io.cells := by
  unfold raiseWith
  split
  · rfl
  · split
    · rw [cells_sendNoticeWith hd, cells_recordEvent]
    · rfl

end

theorem cells_raiseBuffer (e : Event) (io : Io) : (raiseBuffer e io).cells = io.cells :=
  cells_raiseWith cells_recordEvent e io

theorem cells_noticeDrop (c : Category) (e : Event) (io : Io) : (noticeDrop c e io).cells = io.cells := by
  cases c
  case control => rfl
  all_goals exact cells_raiseBuffer e io

theorem cells_raise (e : Event) (io : Io) : (raise e io).cells = io.cells := cells_raiseWith (cells_noticeDrop _) e io

theorem cells_sendNotice (c : Category) (io : Io) : (sendNotice c io).cells = io.cells :=
  cells_sendNoticeWith (cells_noticeDrop c) c io

theorem cells_allocMgmt (p : Port) (k : Kind) (n : Nat) (io : Io) :
    (allocMgmt p k n io).2.cells + (if (allocMgmt p k n io).1 then n else 0) = io.cells :=
  cells_allocMgmtWith cells_raise p k n io

theorem cells_placeMgmt (p : Port) (f : QFrame) (io : Io) : (placeMgmt p f io).2.cells = io.cells + f.cells :=
  cells_placeMgmtWith cells_raise p f io

theorem cells_sendMgmt (p : Port) (f : QFrame) (io : Io) : (sendMgmt p f io).2.cells = io.cells :=
  cells_sendMgmtWith cells_raise p f io

theorem cells_allocData (p : Port) (n : Nat) (io : Io) :
    (allocData p n io).2.cells + (if (allocData p n io).1 then n else 0) = io.cells := by
  unfold allocData
  split
  · rename_i h
    simp only [if_true]
    refine cells_takeCells n io ?_
    simp only [dataFits, decide_eq_true_eq] at h
    omega
  · simpa using cells_refuseCells cells_raise p .data n io

/-- A frame placed in a class queue brings its cells, taken or dropped (R30, R69). -/
theorem cells_placeClass (limited : Bool) (p : Port) (f : QFrame) (io : Io) :
    (placeClass limited p f io).2.cells = io.cells + f.cells := by
  unfold placeClass
  split
  · rw [cells_raise, cells_countEs, cells_freeCells]
  · refine cells_onPort p _ io f.cells ?_
    simp only [PortEgress.cells, PerClass.toList, List.map, List.sum_cons, List.sum_nil]
    match h : f.cls with
    | 0 | 1 | 2 | _ + 3 =>
      simp only [PerClass.set, PerClass.get, queueCells_append, queueCells_cons, queueCells_nil]
      omega

theorem cells_respond (tag code : Nat) (st : Status) (recs : List (List Byte)) (io : Io) :
    (respond tag code st recs io).cells = io.cells := by
  unfold respond
  dsimp only
  split
  · simp only [loseResponse, countNoRoute, cells_countCu, cells_countFp]
    split
    · rename_i h
      rw [cells_freeCells, cells_takeCells _ _ (of_decide_eq_true h)]
      exact cells_countCu _ io
    · exact cells_countCu _ io
  · split
    · rw [cells_sendMgmt, cells_countCu]
    · rw [loseResponse, cells_countCu, cells_sendMgmt, cells_countCu]

/-! ## The exit from ROOT (R14, R15) -/

/-- The beacon position is empty after a discard, and nothing else of the Egress Service changes. -/
theorem dropBeacon_es (io : Io) : (dropBeacon io).es = { io.es with beaconPos := none } := by
  unfold dropBeacon
  split
  · rfl
  · rename_i h
    rw [← h]

@[simp] theorem dropBeacon_cu (io : Io) : (dropBeacon io).cu = io.cu := by
  unfold dropBeacon
  split <;> rfl

/-- The cells of a discarded beacon return to the pool (R30). -/
theorem cells_dropBeacon (io : Io) : (dropBeacon io).cells = io.cells := by
  unfold dropBeacon
  split
  · rename_i f h
    rw [cells_freeCells]
    simp [Io.cells, Io.onEs, Egress.beaconCells, h]
  · rfl

/-- A node not in ROOT has nothing to discard. -/
theorem exitRoot_of_ne {s : State} (h : s.tb.sync ≠ .root) : exitRoot s = s := by simp [exitRoot, h]

/-- What a node in ROOT discards as it leaves. -/
theorem exitRoot_of_root {s : State} (h : s.tb.sync = .root) :
    exitRoot s = { s with tb := { s.tb with preset := none, quietList := [] }, io := dropBeacon s.io } := by
  simp [exitRoot, h, State.onTb, State.onIo]

theorem cells_exitRoot (s : State) : (exitRoot s).io.cells = s.io.cells := by
  by_cases h : s.tb.sync = .root
  · rw [exitRoot_of_root h]
    exact cells_dropBeacon s.io
  · rw [exitRoot_of_ne h]

end Sys2Proof.Machine
end

