-- ==== Sys2Proof/Laws/Egress.lean ====
section
/-! SUPPORT. What judging the heads at a window opening can do, said once (R81): one head, the telling of the Handoff Unit,
and the queue a drop leaves. -/

namespace Sys2Proof.Machine

/-! ## One head -/

theorem judgeHeads_of_empty {fuel index : Nat} {id : QueueId} {w : Window} {s : State}
    (h : (s.io.port .fp3).q id = []) : judgeHeads fuel id index w s = s := by
  cases fuel <;> simp [judgeHeads, h]

theorem judgeHeads_of_fits {fuel index : Nat} {id : QueueId} {w : Window} {s : State} {f : QFrame} {rest : List QFrame}
    (h : (s.io.port .fp3).q id = f :: rest) (fits : s.io.es.airtime s.node f + s.io.es.guardTime ≤ w.length) :
    judgeHeads fuel id index w s = s := by
  cases fuel with
  | zero => rfl
  | succ n =>
    rw [judgeHeads, h]
    exact if_neg (Nat.not_lt.2 fits)

theorem judgeHeads_of_misfit {fuel index : Nat} {id : QueueId} {w : Window} {s : State} {f : QFrame} {rest : List QFrame}
    (h : (s.io.port .fp3).q id = f :: rest) (misfit : w.length < s.io.es.airtime s.node f + s.io.es.guardTime) :
    judgeHeads (fuel + 1) id index w s = judgeHeads fuel id index w (dropHead id index f rest s) := by
  rw [judgeHeads, h]
  exact if_pos misfit

theorem judgeQueue_of_not_allowed {index : Nat} {w : Window} {s : State} {id : QueueId} (h : w.allows s.node id = false) :
    judgeQueue index w s id = s := by simp [judgeQueue, h]

/-! ## The Handoff Unit told -/

/-- What telling the Handoff Unit of a FWD frame leaves: every other unit, and of the ports, queues and tables what
`Io.Kept` lists but the count of free values drawn. -/
structure ToldKept (s t : State) : Prop where
  tb : t.tb = s.tb
  cl : t.cl = s.cl
  su : t.su = s.su
  se : t.se = s.se
  ie : t.ie = s.ie
  pending : t.pending = s.pending
  io : Io.Kept s.io { t.io with freeCount := s.io.freeCount }

theorem ToldKept.refl (s : State) : ToldKept s s := ⟨rfl, rfl, rfl, rfl, rfl, rfl, { Io.Kept.refl s.io with }⟩

theorem ToldKept.trans {a b c : State} (h : ToldKept a b) (k : ToldKept b c) : ToldKept a c where
  tb := k.tb.trans h.tb
  cl := k.cl.trans h.cl
  su := k.su.trans h.su
  se := k.se.trans h.se
  ie := k.ie.trans h.ie
  pending := k.pending.trans h.pending
  io :=
    let m : Io.Kept { b.io with freeCount := a.io.freeCount } { c.io with freeCount := a.io.freeCount } :=
      { k.io with freeCount := rfl }
    h.io.trans m

/-- A change of the contexts and counters of the Handoff Unit. -/
theorem toldKept_onHu (f : HandoffUnit → HandoffUnit) (s : State) : ToldKept s (s.onHu f) :=
  { ToldKept.refl s with }

/-- A change of the ports and queues that keeps what `Io.Kept` lists but the count of free values drawn. -/
theorem toldKept_onIo (f : Io → Io) (s : State) (h : Io.Kept s.io { f s.io with freeCount := s.io.freeCount }) :
    ToldKept s (s.onIo f) := ⟨rfl, rfl, rfl, rfl, rfl, rfl, h⟩

theorem toldKept_bump (b : Bool) (s : State) : ToldKept s (s.onIo fun io => if b then io.bumpFree else io) := by
  apply toldKept_onIo
  cases b <;> exact { Io.Kept.refl s.io with }

theorem toldKept_sendRelease (a : Addr) (peer forwarded : Nat) (sn : Option Allowance) (hints : List Hint) (s : State) :
    ToldKept s (sendRelease a peer forwarded sn hints s).2 := by
  have h (m : StationMsg) : ToldKept s (s.onIo fun _ => (sendStation peer m s.io).2) :=
    toldKept_onIo _ s { kept_sendMgmt .fp3 _ s.io with freeCount := rfl }
  have b (x : State) : ToldKept x (x.onIo fun io => if sn.isNone then io.bumpFree.bumpFree else io) := by
    apply toldKept_onIo
    cases sn.isNone <;> exact { Io.Kept.refl x.io with }
  unfold sendRelease
  dsimp only
  split <;> split
  all_goals first
    | exact ((h _).trans (b _)).trans (toldKept_onHu _ _)
    | exact (h _).trans (b _)

theorem toldKept_tryRelease (i : Nat) (s : State) : ToldKept s (tryRelease i s) := by
  unfold tryRelease
  split
  · split
    · dsimp only
      split
      · exact (toldKept_sendRelease ..).trans (toldKept_onHu _ _)
      · exact toldKept_sendRelease ..
    · exact ToldKept.refl s
  · exact ToldKept.refl s

/-- The outcome of a FWD frame changes the Handoff Unit, places at most a RELEASE, and leaves the class queues (R116). -/
theorem toldKept_toldFwd (m : Mark) (success : Bool) (s : State) : ToldKept s (toldFwd m success s) := by
  unfold toldFwd
  split
  · exact ToldKept.refl s
  · split
    · exact ToldKept.refl s
    · split
      · dsimp only
        refine ToldKept.trans ?_ (toldKept_tryRelease _ _)
        cases success
        · exact toldKept_onHu (fun h => { h with slots := h.slots.modify m.slot _ }) s
        · exact ((toldKept_onHu _ s).trans (toldKept_onHu _ _)).trans (toldKept_bump _ _)
      · exact ToldKept.refl s

/-! ## What one drop leaves -/

@[simp] theorem port_freeCells (n : Nat) (io : Io) (p : Port) : (freeCells n io).port p = io.port p := rfl

/-- A dropped head leaves its queue's tail, if that is a class queue; what the drop builds goes to management queues. -/
theorem dropHead_q (k index : Nat) (f : QFrame) (rest : List QFrame) (s : State) :
    ((dropHead (.cls k) index f rest s).io.port .fp3).q (.cls k) = rest := by
  have hd : ((s.onIo (dropOversize (.cls k) index f rest)).io.port .fp3).q (.cls k) = rest := by
    refine (congrArg (·.get k) ((kept_raise _ _).queue .fp3)).trans ?_
    dsimp only
    rw [port_freeCells]
    simp [PortEgress.setQ]
  unfold dropHead
  dsimp only
  split
  · next m _ _ =>
    have := (toldKept_toldFwd m false (s.onIo (dropOversize (.cls k) index f rest))).io.queue .fp3
    exact (congrArg (·.get k) this).trans hd
  · exact hd

end Sys2Proof.Machine
end

