-- ==== Sys2Proof/Tests/Slice0.lean ====
section
/-! SUPPORT. The author's own tests: ill-formed commands the range check refuses, the worked cases of the spec, and for every
statement concrete states and operands that meet its hypotheses. -/

namespace Sys2Proof.Tests

set_option Elab.async false

open Sys2Proof.Machine

/-! ## Small states -/

/-- The state after a command. -/
def after (i : Instr) (s : State) : State :=
  match exec i s with
  | .next t => t
  | _ => s

def h0 : ReqHead := { port := .fp0, denied := false, tag := 7, dest := 1, short := false }

def s0 : State := State.reset

/-- Node 1 as root, at priority 1. -/
def root : State := s0.onTb fun t => { t with sync := .root, params := { t.params with priority := 1 } }

/-- A node in a state that follows root 2. -/
def follower (st : SyncState) : State := s0.onTb fun t => { t with sync := st, followed := some ⟨2, 1⟩ }

/-- A state a number of cycles after the last observed cycle start. -/
def later (n : Nat) (s : State) : State := s.onTb fun t => { t with lt := BitVec.ofNat 48 (8192 * n) }

def al : Allowance := { remaining := 600, day := 3, known := true }

def entry (st : StState) : Station := { addr := 5#48, st := st, profile := 0, since := 0 }

/-- One entry, in slot 0. -/
def withEntry (e : Station) (s : State) : State := s.onSu fun u => { u with table := u.table.set 0 (some e) }

def served : State := withEntry (entry (.serving .fp1 al)) s0

def ctx (st : CtxState) : Context := { station := 5#48, peer := 2, st := st }

/-- One context, in slot 0. -/
def withCtx (st : CtxState) (s : State) : State :=
  s.onHu fun h => { h with slots := h.slots.set 0 { gen := 1, ctx := some (ctx st) } }

def waiting : Waiting := { deadline := 0 }

def img : ImageInfo := { id := 9, version := 1, count := 2, crc := 0 }

def held (st : SlotState) : SlotRec := { img := img, map := [false, false], st := st }

/-- The staging slot of the reset state, slot 1, holding an image. -/
def staged (st : SlotState) : State := s0.onIe fun e => e.setSlot true { load := 1, held := some (held st) }

def dist (p : Phase) : Dist :=
  { phase := p, img := img, replace := false, targets := [{ node := 2 }, { node := 3 }], resend := [false, false] }

def distributing (d : Dist) : State := s0.onIe fun e => { e with dist := some d }

/-- An outstanding query of a number, due at local time 0. -/
def asking (k : QueryKind) (d : Dist) : State :=
  distributing { d with query := some { num := 4, kind := k, deadline := 0 } }

def frame : QFrame := { hdr := some { src := 1, dst := 2 }, content := .data [], cells := 1 }

def flow : Flow :=
  { key := { station := 5#48, proto := .udp, rPort := 1, lPort := 2, rAddr := 3 }, ruleClass := 2, essential := false
    pinned := false, clsClass := 2, effClass := 2, lastSeen := 0 }

/-- A link frame from 9 to 5 of type 0x1234. -/
def linkFrame : List Byte := be 6 5 ++ be 6 9 ++ be 2 0x1234

theorem s0_node : s0.io.fp.nodeId = 1 := rfl

/-! ## Ill-formed commands -/

theorem test_wf_numbers_too_wide :
    [Instr.pinReset ⟨8, false, false⟩, .setRate h0 (2 ^ 24) 1, .setRate h0 1 65536, .readStatus { h0 with tag := 65536 } 1,
      .readStatus { h0 with dest := 9 } 1, .readStatus h0 256, .presetTime h0 (2 ^ 47), .presetTime h0 (-(2 ^ 47) - 1),
      .setCalendar h0 (2 ^ 24), .writeEntryPeer h0 65536 1 1, .writeEntryPeer h0 1 65536 1, .writeEntryPeer h0 1 1 65536,
      .setBackhaulParameters h0 256 0, .setBackhaulParameters h0 0 256, .setAdmission h0 256 1, .setAdmission h0 0 256,
      .registerController h0 256 0 0, .registerController h0 1 256 0, .grantBonus h0 1 65536, .setOverride h0 256 1 1,
      .setOverride h0 1 256 1, .setOverride h0 1 1 256, .clearOverride h0 1 256, .toggleOverride h0 1 1 256,
      .commitWindowTable h0 256, .commitScheduleTables h0 256, .setEventEnables h0 65536, .ackEvents h0 65536,
      .setScheduleParameters h0 (2 ^ 24), .setFramePathParameters h0 256, .unknownRequestCode h0 65536,
      .readCounters h0 256].all (fun i => !i.wf) = true := by decide +kernel

theorem test_wf_table_requests :
    [Instr.readEntryClassRule h0 65536, .clearEntryClassRule h0 65536, .readEntryFlow h0 65536, .writeEntryFlow h0 65536,
      .clearEntryFlow h0 65536, .readEntryBackhaulWindow h0 true 65536, .clearEntryBackhaulWindow h0 true 65536,
      .readEntryPeer h0 65536, .clearEntryPeer h0 65536, .readEntryStation h0 65536, .writeEntryStation h0 65536,
      .clearEntryStation h0 65536, .readEntryContext h0 65536, .writeEntryContext h0 65536, .clearEntryContext h0 65536,
      .readEntryMembership h0 true 65536, .writeEntryMembership h0 true 0 0 256, .clearEntryMembership h0 true 65536,
      .readEntryProfile h0 true 65536, .clearEntryProfile h0 true 65536, .readEntryScheduleWindow h0 true 65536,
      .clearEntryScheduleWindow h0 true 65536, .readEntryQueueParameters h0 65536,
      .writeEntryClassRule h0 0 ⟨256, 0, 0, 0, 0, 0, 0, 0, 0, false, false⟩,
      .writeEntryBackhaulWindow h0 false 0 ⟨65536, 1, 1, 1, 1, 1, 1⟩,
      .writeEntryProfile h0 false 1 ⟨none, some [1, 2], none, none, none⟩,
      .writeEntryProfile h0 false 1 ⟨none, none, none, none, some [⟨1, 1⟩]⟩,
      .writeEntryProfile h0 false 1 ⟨some 256, none, none, none, none⟩,
      .writeEntryScheduleWindow h0 false 0 ⟨256, 0, 0, 1⟩].all (fun i => !i.wf) = true := by decide +kernel

theorem test_wf_parameters :
    [Instr.setSyncParameters h0 ⟨some 256, none, none, none, none, none⟩,
      .setClassifierParameters h0 ⟨some 65536, none, none, none, none⟩, .setQueueParameters h0 0 0 ⟨none, none, some (2 ^ 24), none⟩,
      .setSteeringParameters h0 ⟨none, some 128, none, none, none, none⟩, .setHandoffParameters h0 ⟨some 256, none, none⟩,
      .setImageParameters h0 ⟨some (2 ^ 24, 0), none, none, none, none, none, none, none, none⟩,
      .setImageParameters h0 ⟨some (1, 256), none, none, none, none, none, none, none, none⟩,
      .imageOpen h0 { img with count := 65536 } false, .imageBlock h0 0 0 [], .distributeStart h0 65536 false [],
      .distributeStart h0 9 false [256]].all (fun i => !i.wf) = true := by decide +kernel

theorem test_wf_frames :
    [Instr.dataFrameArrival .fp3 none [], .dataFrameArrival .fp0 (some ⟨false, 0, 1, 0⟩) [],
      .dataFrameArrival .fp3 (some ⟨false, 4, 1, 0⟩) [], .dataFrameArrival .fp3 (some ⟨false, 0, 9, 0⟩) [],
      .beaconReceived ⟨0, 1, 13, false, false, 0, none⟩ 0, .beaconReceived ⟨1, 8, 13, false, false, 0, none⟩ 0,
      .beaconReceived ⟨1, 1, 256, false, false, 0, none⟩ 0, .beaconReceived ⟨1, 1, 13, false, false, 0, some ⟨0, 2 ^ 32, 0⟩⟩ 0,
      .claimReceived ⟨5, 0, 0, 0⟩, .claimReceived ⟨5, 1, 9, 0⟩, .releaseReceived ⟨5, 1, 65536, al, 0, []⟩,
      .releaseReceived ⟨5, 1, 0, ⟨86401, 0, true⟩, 0, []⟩, .releaseReceived ⟨5, 1, 0, ⟨0, 7, true⟩, 0, []⟩,
      .releaseReceived ⟨5, 1, 0, al, 32, []⟩, .releaseReceived ⟨5, 1, 0, al, 0, List.replicate 9 ⟨.udp, 0, 0, 0⟩⟩,
      .releaseReceived ⟨5, 1, 0, al, 0, [⟨.udp, 65536, 0, 0⟩]⟩, .hearingReceived ⟨5, 9, 0⟩, .hearingReceived ⟨5, 1, 32768⟩,
      .controlRequestArrival .fp0 ⟨0, 1⟩ [], .responseNoticeRelay true ⟨1, 9⟩ [], .announce 9 0 img false,
      .announce 1 65536 img false, .blockMessage 0 0 0 [], .mapQuery 1 0 0 65536, .verifyQuery 0 0 0, .propose 0 0 0 0 false,
      .cancel 0 0 0, .quietRequest 0 0 0 0, .announceReply 65536 .ready, .mapReport 0 ⟨.receiving, false, [(65536, 1)]⟩,
      .mapReport 0 ⟨.receiving, false, List.replicate 17 (0, 1)⟩, .verifyReport 65536 true, .proposeReply 0 .defer .late,
      .cancelReply 65536 true, .quietReply 65536 .ok, .associate .fp1 5 128, .signal .fp1 5 (-129), .heard .fp1 5 128,
      .pendingCutoverReached 192, .lingerEnd 16, .waitDeadline 16, .predecessorDeadline 16, .blockReadComplete true []].all
        (fun i => !i.wf) = true := by decide +kernel

/-! ## Worked cases of the spec -/

/-- R151: the check values of the two CRCs over the digits 1 to 9. -/
theorem test_crc_check_values :
    crc32 [49, 50, 51, 52, 53, 54, 55, 56, 57] = 0xCBF43926 ∧ crc16 [49, 50, 51, 52, 53, 54, 55, 56, 57] = 0x29B1 := by
  decide +kernel

/-- Section 1.9, the rate correction. -/
theorem test_rate_correction : rateRaw 163840 524298 524288 = 163843 ∧ bandLow 163840 = 163520 ∧ bandHigh 163840 = 164160 := by
  decide

/-- Section 1.10, the minute of the week. -/
theorem test_minute_of_the_week :
    ({ anchor := 1000000000, weekSec := 331200, valid := true } : Calendar).minuteOf 6430250000 = 5610 := by decide +kernel

/-- Section 1.13, the offset step. -/
theorem test_offset_step :
    let t : TimeBase := { offset := 994997330 }
    let b : Beacon := { root := 2, prio := 1, exp := 13, disc := false, quiet := false, mtb := 999997440, cal := none }
    stepError t b 5000123 7 = 6 ∧ stepOffset b 5000123 7 = 994997324 ∧ t.countOf b.mtb = 22 := by decide +kernel

/-- Section 2.3, the reserve floor: 5 cells of 70 are granted to data, 2 of 65 are not, 1 of 65 to management is. -/
theorem test_reserve_floor :
    dataFits 5 (takeCells 1978 s0.io) = true ∧ dataFits 2 (takeCells 1983 s0.io) = false ∧
      mgmtFits 1 (takeCells 1983 s0.io) = true := by decide +kernel

/-- Section 3.6, the console's six periods. -/
theorem test_console_scores :
    let p : ClassifierParams := {}
    let f (q packets bytes : Nat) : Nat := { flow with q := q, packets := packets, bytes := bytes }.nextScore p
    [f 0 38 3648, f 1 64 6400, f 2 64 6912, f 3 230 25300, f 2 0 0, f 1 0 0, f 0 190 218500] = [1, 2, 3, 2, 1, 0, 0] := by
  decide

/-- Section 4.2, credits on one cycle. -/
theorem test_credits_on_one_cycle :
    let q : QParams := { quantum := 3000, cap := 6000 }
    let e : PortEgress := { written := ⟨q, q, q, q⟩, credit := ⟨-200, 6000, 0, -1535⟩ }
    e.reload.credit = ⟨2800, 6000, 3000, 1465⟩ ∧ charged 2800 1000 = 1800 ∧ charged 800 1000 = -200 ∧
      charged 1 1536 = -1535 := by decide

/-- Section 4.4, the fit check: 1,182 bytes behind a mesh header at 300 Mbit/s. -/
theorem test_airtime :
    let f : QFrame := { frame with content := .control (List.replicate 1182 0), cells := 5 }
    let e : Egress := { peers := [{}, { inUse := true, rate := 300 }] }
    e.airtime 1 f = 72 := by decide +kernel

/-- Section 5.5, the laptop's levels. -/
theorem test_smoothed_levels :
    [smooth (some (-1040)) (-75), smooth (some (-1060)) (-75), smooth (some (-1077)) (-75), smooth (some (-1092)) (-75),
      smooth (some (-1105)) (-75), smooth (some (-1116)) (-75), smooth (some (-1126)) (-75), smooth (some (-1135)) (-75),
      smooth none (-75)] = [-1060, -1077, -1092, -1105, -1116, -1126, -1135, -1143, -1200] := by decide

/-- Section 7.4, the kinds of minute event. -/
theorem test_minute_kinds :
    [dayBoundary (some 5639) 5640, dayBoundary (some 10079) 0, dayBoundary none 5610, dayBoundary (some 5610) 8250,
      dayBoundary (some 5610) 5550, dayBoundary (some 1400) 1450] = [false, true, false, true, false, true] ∧
    [minuteKind (some 5639) 5640, minuteKind none 5610, minuteKind (some 5610) 8250] = [.normal, .start, .jump] := by decide

/-- Section 7.5, the forming of an allowance. -/
theorem test_forming_an_allowance :
    let p : Profile := { daily := [0, 0, 0, 90, 120, 0, 0], fallback := 30 }
    [formRemaining p 3 (some ⟨1800, 3, true⟩) 60 false, formRemaining p 4 (some ⟨1800, 3, true⟩) 0 false,
      formRemaining p 3 (some ⟨1800, 3, false⟩) 60 false, formRemaining p 3 none 60 false, formRemaining p 3 none 60 true] =
    [1740, 7200, 5340, 1740, 5340] := by decide

/-- Section 8.7, the cutover. -/
theorem test_choosing_a_cutover :
    chooseCutover { lt := 7000000000 } 4 = 7004487680 ∧
      proposeCutoff { dist .propose with cutover := some 7004487680 } 4 = 7002487680 := by decide +kernel

/-- Section 2.9: a frame from a station on FP1 of the gateway to an address without an entry leaves on FP0 in class 2. -/
theorem test_uplink_frame :
    let t := after (.dataFrameArrival .fp1 none linkFrame) s0
    (t.io.port .fp0).queue.c2 = [{ hdr := none, content := .data linkFrame, cls := 2, cells := 1 }] ∧
      t.io.fp.freeCells = 2047 ∧ t.cl.counters.rulesOnly = 1 := by decide +kernel

/-- 9.5: an event makes its category pending, a second raises its count, an acknowledgement clears the record. -/
theorem test_events_and_acknowledgement :
    let t := raise (.holdOverflow 5 4) (raise (.contextLost 5 2) s0.io)
    t.cu.events.handoff = { pending := true, enable := false, first := some (.contextLost 5 2), count := 2 } ∧
      (after (.ackEvents h0 4) { s0 with io := t }).io.cu.events.handoff = {} := by decide +kernel

/-- The bytes of a beacon body without a calendar record, byte by byte (10.3). -/
theorem test_beacon_bytes :
    beaconBytes { root := 3, prio := 1, exp := 13, disc := true, quiet := true, mtb := 0x0102030405, cal := none } =
      [3, 1, 13, 3, 0, 1, 2, 3, 4, 5] := by decide +kernel

/-- A mesh header, byte by byte (10.2). -/
theorem test_mesh_header_bytes :
    hdrBytes .data { fwd := true, cls := 2, src := 3, dst := 1, station := 0x0A0B0C0D0E0F } 0x0123 =
      [1, 1, 1, 2, 3, 1, 10, 11, 12, 13, 14, 15, 1, 0x23, 0, 0, 0, 0] := by decide +kernel

/-- A CLAIM, byte by byte (10.4), read back. -/
theorem test_claim_bytes :
    stationBytes (.claim { station := 5, claimant := 3, prev := 2, cutover := 0x0100 }) =
      [1, 0, 0, 0, 0, 0, 5, 3, 2, 0, 0, 0, 0, 1, 0] ∧
    readStation [1, 0, 0, 0, 0, 0, 5, 3, 2, 0, 0, 0, 0, 1, 0] =
      some (.claim { station := 5, claimant := 3, prev := 2, cutover := 0x0100 }) ∧
    readStation [4, 0, 0, 0, 0, 0, 5, 3, 2, 0, 0, 0, 0, 1, 0] = none := by decide +kernel

/-- A SET RATE request, byte by byte, as the Control Unit takes it from its queue (10.7). -/
theorem test_request_decoding :
    decodeRequest { denied := false, port := .fp0, dest := 1, payload := [1, 0, 7, 0, 16, 2, 0x80, 0, 0x10, 0] } =
      .row (.setRate h0 163840 4096) ∧
    decodeRequest { denied := false, port := .fp0, dest := 1, payload := [1, 0, 7, 0, 16, 2, 0x80, 0, 0x10] } =
      .row (.setRate { h0 with short := true } 163840 16) ∧
    decodeRequest { denied := false, port := .fp0, dest := 1, payload := [1, 0, 7, 0, 14] } =
      .row (.unknownRequestCode h0 14) := by decide +kernel

/-- The table gives no row bits, so a word spells no command. -/
theorem test_no_word_spells_a_command : decodeTableWord 16 0 = none ∧ s0.withFetchWord 16 0 = s0 := ⟨rfl, rfl⟩

/-- A step from reset with a command in front runs it. -/
theorem test_step_runs_the_front :
    step { s0 with pending := [.syncControl h0 true] } = .next (after (.syncControl h0 true) s0) ∧
      (after (.syncControl h0 true) s0).tb.sync = .listen := ⟨rfl, by decide +kernel⟩

/-- From reset, with nothing waiting, the first steps are the opening of a window and then clock periods. -/
theorem test_idle_steps : step s0 = exec .windowOpening s0 ∧ due (after .windowOpening s0) = some (.frameRelease .fp3) := by
  constructor
  · rfl
  · decide +kernel

/-! ## The statements' hypotheses are met

One theorem for every statement with hypotheses. A hypothesis that some `∃` fails, or that every entry is of a kind, is shown
by the equation it follows from (no distribution, an empty table). -/

theorem h0_admitted : h0.admitted := ⟨rfl, by decide, rfl⟩

theorem h0_readable : h0.readable := ⟨rfl, rfl⟩

/-- In a list of empty slots no slot holds anything. -/
theorem empty_slots {α : Type} {n i : Nat} {a : α} (h : (List.replicate n (none : Option α))[i]? = some (some a)) : False := by
  rw [List.getElem?_replicate] at h
  split at h <;> simp at h

/-- In a list with one slot filled only that slot holds something. -/
theorem one_slot {α : Type} {n k i : Nat} {a b : α}
    (h : ((List.replicate n (none : Option α)).set k (some b))[i]? = some (some a)) : i = k := by
  by_cases hk : k = i
  · exact hk.symm
  · rw [List.getElem?_set_ne hk] at h
    exact (empty_slots h).elim

/-- A table with one entry holds no address twice. -/
theorem stationsDistinct_one (e : Station) (s : State) (h : s.su.table = List.replicate 192 none) :
    StationsDistinct (withEntry e s) := by
  have ht : (withEntry e s).su.table = (List.replicate 192 none).set 0 (some e) := by simp only [withEntry, State.onSu, h]
  refine ⟨by rw [ht, List.length_set, List.length_replicate], ?_⟩
  intro i j a b hi hj _
  rw [ht] at hi hj
  rw [one_slot hi, one_slot hj]

theorem stationsDistinct_s0 : StationsDistinct s0 := by
  have ht : s0.su.table = List.replicate 192 none := rfl
  refine ⟨by rw [ht, List.length_replicate], ?_⟩
  intro i j a b hi
  rw [ht] at hi
  exact (empty_slots hi).elim

/-- One flow, in slot 0. -/
def withFlow (f : Flow) (s : State) : State := { s with cl := { s.cl with flows := s.cl.flows.set 0 (some f) } }

theorem flowsDistinct_one (f : Flow) (s : State) (h : s.cl.flows = List.replicate 512 none) :
    FlowsDistinct (withFlow f s) := by
  have ht : (withFlow f s).cl.flows = (List.replicate 512 none).set 0 (some f) := by simp only [withFlow, h]
  refine ⟨by rw [ht, List.length_set, List.length_replicate], ?_⟩
  intro i j a b hi hj _
  rw [ht] at hi hj
  rw [one_slot hi, one_slot hj]

theorem flowsDistinct_s0 : FlowsDistinct s0 := by
  have ht : s0.cl.flows = List.replicate 512 none := rfl
  refine ⟨by rw [ht, List.length_replicate], ?_⟩
  intro i j a b hi
  rw [ht] at hi
  exact (empty_slots hi).elim

/-- The reset state with the window in effect already noted: nothing is due. -/
def settled : State := s0.onIo (Io.onEs fun e => { e with seen := some (s0.io.es.inEffect s0.tb) })

def request (payload : List Byte) : CtlReq := { denied := false, port := .fp0, dest := 1, payload := payload }

/-- The settled state with a DISCARD of the window table in its control queue. -/
def asked : State := settled.onIo (Io.onCu fun c => { c with queue := [request [1, 0, 7, 0, 8, 1]] })

theorem test_meets_EmptyQueueStepGoesOn :
    s0.pending = [] ∧ due s0 = some .windowOpening ∧
    asked.pending = [] ∧ due asked = none ∧ asked.io.cu.queue = request [1, 0, 7, 0, 8, 1] :: [] ∧
      decodeRequest (request [1, 0, 7, 0, 8, 1]) = .row (.discardWindowTable h0) ∧
    settled.pending = [] ∧ due settled = none ∧ settled.io.cu.queue = [] := by decide +kernel

theorem test_meets_EveryCommandAnswersNext : ∀ st, Instr.cycleStart ≠ .pinReset st := by simp

theorem test_meets_LocalTimeAdvancesAtTheRate :
    (RateFractionProper s0 ∧ step s0 = .next (after .windowOpening s0) ∧ s0.tb.fracNum = 0) ∧
    RateFractionProper (s0.onTb fun t => { t with n := 1, d := 1, fracNum := 2, fracDen := 3 }) ∧
    exec (.syncControl h0 true) s0 = .next (after (.syncControl h0 true) s0) ∧
    ∀ st, Instr.syncControl h0 true ≠ .pinReset st :=
  ⟨⟨by unfold RateFractionProper; decide +kernel, rfl, rfl⟩, by unfold RateFractionProper; decide +kernel, rfl, by simp⟩

/-! ### Invariants: each holds right after reset, where a step gives a next state -/

theorem step_s0 : step s0 = .next (after .windowOpening s0) := rfl

theorem test_meets_CellsAccountedAtEveryStep : CellsAccounted s0 ∧ step s0 = .next (after .windowOpening s0) :=
  ⟨by unfold CellsAccounted; decide +kernel, rfl⟩

theorem creditsInRange_s0 : CreditsInRange s0 := by
  intro p k
  have hc : (s0.io.port p).credit = ⟨0, 0, 0, 0⟩ := by cases p <;> rfl
  rw [hc]
  have : (PerClass.get (⟨0, 0, 0, 0⟩ : PerClass Int) k) = 0 := by
    match k with
    | 0 => rfl
    | 1 => rfl
    | 2 => rfl
    | _ + 3 => rfl
  rw [this]
  omega

theorem test_meets_CreditsReloadAndStayInRange :
    (CreditsInRange s0 ∧ step s0 = .next (after .windowOpening s0)) ∧ (later 1 s0).tb.count ≠ (later 1 s0).tb.lastCount ∧
      h0.admitted :=
  ⟨⟨creditsInRange_s0, rfl⟩, by decide +kernel, h0_admitted⟩

theorem test_meets_StationsAndFlowsStayDistinct :
    StationsDistinct served ∧ FlowsDistinct (withFlow flow s0) ∧ (∃ t, step served = .next t) ∧
      ∃ t, step (withFlow flow s0) = .next t :=
  ⟨stationsDistinct_one _ _ (by decide +kernel), flowsDistinct_one _ _ (by decide +kernel), ⟨_, rfl⟩, ⟨_, rfl⟩⟩

theorem allowancesInRange_s0 : AllowancesInRange s0 ∧ step s0 = .next (after .windowOpening s0) := by
  refine ⟨⟨by decide +kernel, ?_, ?_, ?_, ?_⟩, rfl⟩
  · unfold SchedTables.dailyOk; decide +kernel
  · unfold SchedTables.dailyOk; decide +kernel
  · have none_ : s0.su.table.filterMap id = [] := by decide +kernel
    rw [none_]
    intro e he
    cases he
  · have : ∀ x ∈ s0.hu.slots, x.ctx = none := by decide +kernel
    intro x hx c hc
    simp [this x hx] at hc

theorem slotCountsAgree_staged :
    SlotCountsAgree (staged .receiving) ∧ ∃ t, step (staged .receiving) = .next t := by
  refine ⟨?_, _, rfl⟩
  intro n r h
  cases n
  · cases h
  · have : r = held .receiving := by
      have : ((staged .receiving).ie.slot true).held = some (held .receiving) := rfl
      exact (Option.some.inj (this.symm.trans h)).symm
    subst this
    unfold SlotRec.countsOk
    decide

theorem test_meets_AllowancesAndSlotCountsStayInRange :
    (AllowancesInRange s0 ∧ step s0 = .next (after .windowOpening s0)) ∧
    (SlotCountsAgree (staged .receiving) ∧ ∃ t, step (staged .receiving) = .next t) :=
  ⟨allowancesInRange_s0, slotCountsAgree_staged⟩

/-- A root with its beacon waiting to be sent. -/
def beaconing : State := after .cycleStart (later 1 root)

theorem test_meets_EventRecordsScheduleTimeAndBeaconStayConsistent :
    EventRecordsConsistent s0 ∧ ScheduleTimeCaughtUp s0 ∧ step s0 = .next (after .windowOpening s0) ∧
      (BeaconOnlyInRoot beaconing ∧ beaconing.io.es.beaconPos.isSome = true ∧ ∃ t, step beaconing = .next t) := by
  refine ⟨?_, ?_, rfl, ?_, by decide +kernel, _, rfl⟩
  · intro c
    cases c <;> exact ⟨rfl, by decide⟩
  · unfold ScheduleTimeCaughtUp
    decide +kernel
  · intro _
    decide +kernel

/-- An exit from ROOT takes the waiting beacon with it, its cell and all; nothing of it is counted (R14, log 35). -/
theorem test_exit_from_root_discards_the_beacon :
    beaconing.io.fp.freeCells = 2047 ∧
    [after (.syncControl h0 false) beaconing, after (.setSyncParameters h0 ⟨some 7, none, none, none, none, none⟩) beaconing,
      after (.beaconReceived { root := 2, prio := 0, exp := 13, disc := false, quiet := false, mtb := 8192, cal := none } 0)
        beaconing].all (fun s => s.tb.sync ≠ .root && s.io.es.beaconPos.isNone && s.io.fp.freeCells = 2048 &&
          s.tb.counters.beaconsReplaced = 0 && s.tb.counters.beaconsSent = 0) = true := by decide +kernel

/-! ### Encodings -/

def hint : Hint := { proto := .udp, rPort := 65535, lPort := 0, rAddr := 3 }

def release8 : Release :=
  { station := 5, sender := 8, forwarded := 65535, allow := { remaining := 86400, day := 6, known := true }, profile := 31
    hints := List.replicate 8 hint }

theorem test_meets_HeadersBeaconsAndMessagesRoundTrip :
    ((fits 1 255 = true ∧ fits 1 0 = true ∧ fits 2 65535 = true) ∧
      Beacon.wf ⟨1, 0, 0, false, false, 0, none⟩ = true ∧
      Beacon.wf ⟨8, 7, 255, true, true, -1, some ⟨-1, 2 ^ 32 - 1, 255⟩⟩ = true) ∧
    (Claim.wf ⟨5, 8, 0, -1⟩ = true ∧ Claim.wf ⟨5, 1, 8, 0⟩ = true ∧ release8.wf = true ∧
      Release.wf { release8 with sender := 1, hints := [] } = true ∧ HearingMsg.wf ⟨5, 8, -32768⟩ = true ∧
      HearingMsg.wf ⟨5, 1, 32767⟩ = true) ∧
    fits 2 0 = true ∧ fits 2 65535 = true ∧
    [ImageBody.announce 1 8192 7 true, .announceReply .ready, .announceReply .refused, .block 65535 65535 (List.replicate 1024 0),
      .mapQuery 65535, .mapReport ⟨.receiving, true, List.replicate 16 (65535, 65535)⟩, .mapReport ⟨.none, false, []⟩,
      .verifyQuery, .verifyReport true, .propose (-1) true, .proposeReply .defer .outsideMaintenance,
      .proposeReply .accept .none, .cancel, .cancelReply false, .quietRequest (-1), .quietReply .ok].all (·.wf) = true := by
  decide +kernel

/-! ### Requests, responses, events -/

/-- The controller registered at this node, behind FP0, and at another node. -/
def registered (node : Nat) (s : State) : State :=
  s.onIo (Io.onCu fun c => { c with reg := some { node := node, port := .fp0, addr := 9 } })

/-- The reset state with a number of free cells, and with a full management queue at a port. -/
def free (n : Nat) : State := s0.onIo (Io.onFp fun f => { f with freeCells := n })

def full (p : Port) : State := { s0 with io := s0.io.onPort p fun e => { e with mgmt := List.replicate 16 frame } }

theorem test_meets_RequestsAreCheckedAndAnswered :
    (∀ h, Instr.request? (.syncControl { h0 with denied := true, dest := h } true) =
      some ({ h0 with denied := true, dest := h }, 18)) ∧
    Instr.request? (.restart { h0 with dest := 0 }) = some ({ h0 with dest := 0 }, 13) ∧
    Instr.request? (.readStatus { h0 with short := true, dest := 0 } 1) = some ({ h0 with short := true, dest := 0 }, 1) ∧
    Instr.request? (.setRate { h0 with short := true } 1 1) = some ({ h0 with short := true }, 16) ∧
    (registered 1 s0).io.cu.reg = some ⟨1, .fp0, 9⟩ ∧ (18 + 8 + 255) / 256 ≤ (registered 1 s0).io.fp.freeCells ∧
    ((registered 1 s0).io.port .fp0).mgmt.length < 16 ∧ (registered 2 s0).io.cu.reg = some ⟨2, .fp0, 9⟩ ∧
    ((registered 2 s0).io.port .fp3).mgmt.length < 16 ∧ s0.io.cu.reg = none ∧
    ((registered 1 (free 0)).io.fp.freeCells < (18 + 8 + 255) / 256 ∧ 16 ≤ ((registered 1 (full .fp0)).io.port .fp0).mgmt.length ∧
      (18 + 8 + 255) / 256 ≤ (registered 1 (full .fp0)).io.fp.freeCells ∧
      16 ≤ ((registered 2 (full .fp3)).io.port .fp3).mgmt.length) :=
  ⟨fun _ => rfl, by decide +kernel⟩

/-- The reset state with every category enabled. -/
def enabled (s : State) : State := s.onIo (mapEvents fun _ r => { r with enable := true })

theorem test_meets_EventEntersItsRecord :
    let e : Event := .restarted 1 0
    ((raise e s0.io).cu.events.get e.category).pending = true ∧
    (s0.io.cu.events.get e.category).pending = false ∧ (s0.io.cu.events.get e.category).enable = false ∧
    ((enabled s0).io.cu.events.get e.category).enable = true ∧ (enabled s0).io.cu.reg = none ∧
    (let s := registered 1 (enabled s0)
     (s.io.cu.events.get e.category).pending = false ∧ (s.io.cu.events.get e.category).enable = true ∧
      s.io.cu.reg = some ⟨1, .fp0, 9⟩ ∧ (18 + 6 + (eventDetail e).length + 255) / 256 ≤ s.io.fp.freeCells ∧
      (s.io.port .fp0).mgmt.length < 16) ∧
    (∀ e ∈ [Event.restarted 1 0, .contextLost 5 2],
      (let s := registered 1 (enabled (free 0))
       (s.io.cu.events.get e.category).pending = false ∧ (s.io.cu.events.get e.category).enable = true ∧
        s.io.cu.reg = some ⟨1, .fp0, 9⟩ ∧ s.io.fp.freeCells < (18 + (6 + (eventDetail e).length) + 255) / 256) ∧
      (let s := registered 1 (enabled (full .fp0))
       (s.io.cu.events.get e.category).pending = false ∧ (s.io.cu.events.get e.category).enable = true ∧
        s.io.cu.reg = some ⟨1, .fp0, 9⟩ ∧ (18 + (6 + (eventDetail e).length) + 255) / 256 ≤ s.io.fp.freeCells ∧
        16 ≤ (s.io.port .fp0).mgmt.length)) ∧
    (Event.mgmtDrop .fp0 .notice).category = .buffer := by decide +kernel

/-! ### Requests of the Time Base -/

theorem test_meets_SetRateWritesTheRate :
    h0.admitted ∧ max 1 (min 262143 0) < 8 * max 1 (min 16383 0) ∧ max 1 (min 262143 7) < 8 * max 1 (min 16383 1) ∧
    8 * max 1 (min 16383 1) ≤ max 1 (min 262143 8) ∧ 8 * max 1 (min 16383 (2 ^ 16)) ≤ max 1 (min 262143 (2 ^ 24)) ∧
    RateInBand s0 ∧ step s0 = .next (after .windowOpening s0) :=
  ⟨h0_admitted, by decide, by decide, by decide, by decide, by unfold RateInBand; decide +kernel, rfl⟩

/-- A SET SYNC PARAMETERS that carries the exponent, and one that carries the priority. -/
def exponentField (n : Nat) : SyncFields := ⟨none, none, none, none, none, some n⟩

def priorityField (n : Nat) : SyncFields := ⟨some n, none, none, none, none, none⟩

theorem test_meets_SyncRequestsWriteAndMove :
    h0.admitted ∧
    (written 10 16 (some 0) 13 ≠ s0.tb.params.exponent ∧ root.tb.sync ≠ .free) ∧
    (written 10 16 (some 12) 13 ≠ s0.tb.params.exponent ∧ s0.tb.sync = .free ∧
      ∃ w ∈ s0.io.es.active ++ s0.io.es.staged, w.inUse = true ∧ 2 ^ 12 < w.start + w.length) ∧
    (written 10 16 (some 99) 13 ≠ s0.tb.params.exponent ∧
      ¬ ∃ w ∈ s0.io.es.active ++ s0.io.es.staged, w.inUse = true ∧ 2 ^ 16 < w.start + w.length) ∧
    (written 10 16 none 13 = root.tb.params.exponent ∧ root.tb.sync = .root ∧ written 0 7 (some 8) 1 = 7 ∧
      written 0 7 (some 6) 1 ≠ 7) ∧
    (follower .track).tb.sync ≠ .root ∧ (follower .track).tb.sync ≠ .free :=
  ⟨h0_admitted, by decide +kernel, by decide +kernel, by decide +kernel, by decide +kernel, by decide +kernel, by decide +kernel⟩

theorem test_meets_PresetTimeBecomesPending :
    h0.admitted ∧ s0.tb.sync ≠ .root ∧ root.tb.sync = .root ∧
    (2 ^ 40 < (-(2 ^ 40) - 1 : Int).natAbs ∧ 2 ^ 40 < (2 ^ 40 + 1 : Int).natAbs) ∧
    ((2 ^ 40 - 1 : Int).natAbs ≤ 2 ^ 40 ∧ (2 ^ 40 - 1 : Int) % ((2 ^ root.tb.params.exponent : Nat) : Int) ≠ 0) ∧
    ((-(2 ^ 40) : Int).natAbs ≤ 2 ^ 40 ∧ (-(2 ^ 40) : Int) % ((2 ^ root.tb.params.exponent : Nat) : Int) = 0) ∧
    root.tb.preset = none ∧ (after (.presetTime h0 8192) root).tb.preset = some 8192 ∧
    (let s := later 1 (after (.presetTime h0 8192) root)
     s.tb.count ≠ s.tb.lastCount ∧ s.tb.sync = .root ∧ s.tb.preset = some 8192) ∧
    (after (.syncControl h0 false) root).tb.sync ≠ .root :=
  ⟨h0_admitted, by decide +kernel⟩

theorem test_meets_SetCalendarWritesTheRecord :
    h0.admitted ∧ root.tb.sync = .root ∧ s0.tb.sync = .free ∧ (follower .locked).tb.sync ≠ .root ∧
    (follower .locked).tb.sync ≠ .free ∧ (after (.setCalendar h0 604800) s0).tb.cal.valid = true :=
  ⟨h0_admitted, by decide +kernel⟩

theorem test_meets_QuietRequestsAreJudged :
    h0.admitted ∧ 1 ≤ root.io.fp.freeCells ∧ root.tb.sync = .root ∧
    [quietVerdict 16384 s0.tb, quietVerdict 16385 root.tb, quietVerdict 8192 root.tb, quietVerdict (2 ^ 24 + 8192) root.tb,
      quietVerdict 16384 root.tb] = [.notRoot, .malformed, .range, .range, .ok] ∧
    (after (.setSyncParameters h0 (priorityField 7)) root).tb.sync ≠ .root :=
  ⟨h0_admitted, by decide +kernel⟩

/-! ### Parameters and tables -/

theorem test_meets_ParameterRequestsClampAndWrite :
    h0.admitted ∧ h0.readable ∧ 3 < 4 ∧ (portNum .fp0 = 0 ∧ portNum .fp3 = 3) ∧ 16 ≤ 16 ∧ 15 = 4 * portNum .fp3 + 3 :=
  ⟨h0_admitted, h0_readable, by decide⟩

/-- Classifier parameters written are those in use from the next period end (R58): a hint still gets the T_p of before. -/
theorem test_parameters_wait_for_the_period_end :
    let s := after (.setClassifierParameters h0 ⟨none, none, none, some 7, none⟩) s0
    s.cl.params.tp = 7 ∧ ((takeHint 5 s ⟨.udp, 1, 2, 3⟩).cl.flowAt 0).map (·.q) = some 3 ∧
      s.cl.takeParams.inUse.tp = 7 := by decide +kernel

theorem test_meets_SetScheduleParametersWritesTheThreshold :
    h0.admitted ∧
    (let e : Station := { entry (.serving .fp1 al) with eff := some .metered }
     (withEntry e s0).su.table[0]? = some (some e) ∧ e.st = .serving .fp1 al ∧ al.known = true ∧ e.eff = some .metered) :=
  ⟨h0_admitted, by decide +kernel⟩

def ruleFields : ClassRuleFields := ⟨1, 0, 65535, 0, 65535, 0, 9999, 31, 9, true, true⟩

theorem test_meets_ClassRulesAreWrittenClearedAndRead :
    h0.admitted ∧ h0.readable ∧
    (ruleFields.proto = ruleProtoCode .any ∧ ¬ (ruleFields.rHi < ruleFields.rLo ∨ ruleFields.lHi < ruleFields.lLo ∨
      ruleFields.sHi < ruleFields.sLo ∨ 31 < ruleFields.profile)) ∧
    s0.cl.rules[47]?.isSome = true ∧ s0.cl.rules[48]? = none :=
  ⟨h0_admitted, h0_readable, by decide, by decide +kernel⟩

def windowFields (kind owner : Nat) : WindowFields := ⟨99999, 0, kind, owner, 15, 9, 99⟩

theorem test_meets_WindowsAreWrittenClearedAndRead :
    h0.admitted ∧ h0.readable ∧ s0.io.es.pending = none ∧ s0.io.es.staged[23]?.isSome = true ∧ s0.io.es.active[24]? = none ∧
    (s0.onIo (Io.onEs fun e => { e with pending := some .round })).io.es.pending ≠ none ∧
    ((windowFields 2 9).kind = 2 ∧ 8 < (windowFields 2 9).owner) ∧
    ((windowFields 2 8).kind = windowKindCode .owned ∧ ¬ ((windowFields 2 8).owner = 0 ∨ 8 < (windowFields 2 8).owner)) ∧
    (windowFields 3 9).kind = windowKindCode .opened ∧ (windowFields 1 0).kind = windowKindCode .beacon :=
  ⟨h0_admitted, h0_readable, by decide +kernel⟩

theorem test_meets_FlowPeerStationAndContextEntries :
    h0.admitted ∧ h0.readable ∧ (s0.cl.flowAt 511 = none ∧ (withFlow flow s0).cl.flowAt 0 = some flow ∧
      s0.io.es.peers[0]?.isSome = true ∧ s0.io.es.peers[7]?.isSome = true) ∧ s0.su.table[191]?.join = none ∧ s0.su.table[192]?.join = none ∧
    served.su.table[0]?.join = some (entry (.serving .fp1 al)) ∧ s0.hu.ctxAt 15 = none ∧
    (withCtx (.arrive waiting) s0).hu.ctxAt 0 = some (ctx (.arrive waiting)) ∧
    (∃ x ∈ (withCtx (.arrive waiting) served).hu.slots, ∃ c, x.ctx = some c ∧ c.station = 5) ∧
    (∀ x ∈ served.hu.slots, x.ctx = none) :=
  ⟨h0_admitted, h0_readable, by decide +kernel, by decide +kernel, by decide +kernel, by decide +kernel, by decide +kernel,
    by decide +kernel, ⟨{ gen := 1, ctx := some (ctx (.arrive waiting)) }, by decide +kernel, _, rfl, rfl⟩, by decide +kernel⟩

/-- The reset state with a commit of the schedule tables pending. -/
def committing : State := { s0 with se := { s0.se with pending := some .nextDay } }

theorem test_meets_MembersWindowsAndProfilesAreWrittenClearedAndRead :
    (h0.admitted ∧ h0.readable ∧ s0.se.pending = none ∧ committing.se.pending ≠ none ∧
    (5#48 : Addr).getLsbD 40 = false ∧ (BitVec.twoPow 48 40).getLsbD 40 = true ∧
    s0.se.staged.members[127]?.isSome = true ∧ s0.se.active.members[128]? = none ∧ s0.se.staged.windows[255]?.isSome = true ∧
    s0.se.active.windows[256]? = none ∧
    [1, 2, 3, 4, 5] = [schedKindCode (.base .allow), schedKindCode (.base .metered), schedKindCode (.base .limit),
      schedKindCode (.base .block), schedKindCode .maintenance]) ∧
    (h0.admitted ∧ h0.readable ∧ s0.se.pending = none ∧ committing.se.pending ≠ none ∧
    s0.se.staged.profiles[0]?.isSome = true ∧ s0.se.active.profiles[30]?.isSome = true ∧
    (let f : ProfileFields := ⟨some 3, none, none, some 2, some [⟨1, 0⟩, ⟨4, 0⟩, ⟨1, 0⟩, ⟨1, 0⟩]⟩
     (∃ x, f.default = some x ∧ x ≠ 1 ∧ x ≠ 2) ∧ (∃ x, f.exhausted = some x ∧ x ≠ 3 ∧ x ≠ 4) ∧
      ∃ l, f.matrix = some l ∧ ∃ a ∈ l, a.action = 0 ∨ 3 < a.action) ∧
    (let f : ProfileFields := ⟨some 2, none, none, some 4, some [⟨3, 0⟩, ⟨2, 9⟩, ⟨1, 0⟩, ⟨1, 0⟩]⟩
     ¬ ((∃ x, f.default = some x ∧ x ≠ 1 ∧ x ≠ 2) ∨ (∃ x, f.exhausted = some x ∧ x ≠ 3 ∧ x ≠ 4) ∨
      ∃ l, f.matrix = some l ∧ ∃ a ∈ l, a.action = 0 ∨ 3 < a.action) ∧ ∀ l, f.matrix = some l → l.length = 4)) :=
  ⟨⟨h0_admitted, h0_readable, by decide +kernel⟩,
    ⟨h0_admitted, h0_readable, by decide +kernel, by decide +kernel, by decide +kernel, by decide +kernel,
    ⟨⟨3, rfl, by decide⟩, ⟨2, rfl, by decide⟩, _, rfl, ⟨4, 0⟩, by decide⟩, by simp, by simp⟩⟩

/-! ### Commits, the Control Unit -/

/-- The reset state with one staged window changed. -/
def stagedWindow (i : Nat) (w : Window) : State :=
  s0.onIo (Io.onEs fun e => { e with staged := e.staged.set i w, pending := none })

/-- The reset state with one staged schedule window and one staged LIMIT matrix. -/
def stagedSchedule (w : SchedWindow) (p : Profile) : State :=
  { s0 with se := { s0.se with staged := { s0.se.staged with
    windows := s0.se.staged.windows.set 0 w, profiles := s0.se.staged.profiles.set 0 p } } }

/-- A window table of the reset table's first entry, another entry and none behind it. -/
def windows (w : Window) : List Window :=
  { inUse := true, start := 0, length := 512, kind := .beacon } :: w :: List.replicate 22 {}

/-- In such a table no entry but the second can fail. -/
theorem windowFails_second {w : Window} {i : Nat} (h : WindowFails 8192 (windows w) i) : i = 1 := by
  match i with
  | 0 =>
    rcases h with ⟨_, h⟩ | ⟨v, hv, _, h⟩
    · exact absurd ⟨_, rfl, by decide⟩ h
    · cases hv
      rcases h with h | h | ⟨j, _, h, _⟩
      · exact absurd h.1 (by decide)
      · exact absurd h (by decide)
      · exact absurd h (Nat.not_lt_zero j)
  | 1 => rfl
  | i + 2 =>
    rcases h with ⟨h, _⟩ | ⟨v, hv, hu, _⟩
    · cases h
    · have : (windows w)[i + 2]? = (List.replicate 22 ({} : Window))[i]? := rfl
      rw [this, List.getElem?_replicate] at hv
      split at hv
      · cases hv; exact absurd hu (by decide)
      · cases hv

theorem windowsValid_s0 : WindowsValid (2 ^ s0.tb.params.exponent) s0.io.es.staged := by
  intro i h
  have hi : i = 1 := windowFails_second (w := { inUse := true, start := 512, length := 7680, kind := .opened, mask := ⟨true, true, true, true⟩ }) h
  subst hi
  rcases h with ⟨h, _⟩ | ⟨v, hv, _, h⟩
  · cases h
  · cases hv
    rcases h with h | h | ⟨j, u, hj, hu, _, _, h⟩
    · exact absurd h.2 (by decide)
    · exact absurd h (by decide)
    · have : j = 0 := by omega
      subst this
      cases hu
      exact absurd h (by decide)

/-- A matrix that passes R130, whatever the tables. -/
theorem matrixValid_reset : MatrixValid ({} : Profile).matrix := by
  refine ⟨by decide, by simp, ?_, ?_, by simp⟩ <;> intro t ht <;> cases ht <;> decide

/-- Where no member is in use, none fails. -/
theorem memberFails_none {ms : List Member} {i : Nat} (h : ∀ m ∈ ms, m.inUse = false) : ¬ MemberFails ms i := by
  rintro ⟨m, hm, hu, _⟩
  rw [h m (List.mem_of_getElem? hm)] at hu
  cases hu

theorem profileFails_none {ps : List Profile} {i : Nat} (h : ∀ p ∈ ps, p.matrix = ({} : Profile).matrix) :
    ¬ ProfileFails ps i := by
  rintro ⟨_, p, hp, hf⟩
  rw [h p (List.mem_of_getElem? hp)] at hf
  exact hf matrixValid_reset

theorem schedWindowFails_none {ws : List SchedWindow} {i : Nat} (h : ∀ w ∈ ws, w.inUse = false) : ¬ SchedWindowFails ws i := by
  rintro ⟨w, hw, hu, _⟩
  rw [h w (List.mem_of_getElem? hw)] at hu
  cases hu

/-- The staged tables of the reset state pass R130. -/
theorem schedValid_s0 : SchedValid s0.se.staged := by
  rintro t i (⟨_, h⟩ | ⟨_, h⟩ | ⟨_, h⟩)
  · exact memberFails_none (by decide +kernel) h
  · exact profileFails_none (by decide +kernel) h
  · exact schedWindowFails_none (by decide +kernel) h

/-- Two members of one address, a matrix that passes class 0, a MAINTENANCE window of profile 1: the first that fails. -/
theorem first_sched_failures :
    let two : SchedTables := { members := [{ inUse := true, addr := 5 }, { inUse := true, addr := 5 }] }
    let pass := (stagedSchedule {} { matrix := ⟨.pass, .pass, .pass, .pass⟩ }).se.staged
    let one := (stagedSchedule { inUse := true, profile := 1 } {}).se.staged
    let first (s : SchedTables) (t i : Nat) : Prop :=
      SchedFails s t i ∧ ∀ u j, SchedFails s u j → t < u ∨ (t = u ∧ i ≤ j)
    first two 8 1 ∧ first pass 10 1 ∧ first one 12 0 := by
  refine ⟨⟨.inl ⟨rfl, _, rfl, rfl, 0, _, by decide, rfl, rfl, rfl⟩, ?_⟩,
    ⟨.inr (.inl ⟨rfl, by decide, _, rfl, fun h => h.1 rfl⟩), ?_⟩,
    ⟨.inr (.inr ⟨rfl, _, rfl, rfl, .inl (fun h => by cases h.1 rfl)⟩), ?_⟩⟩
  · rintro u j (⟨rfl, _, _, _, k, _, hk, _⟩ | ⟨rfl, _⟩ | ⟨rfl, _⟩)
    · exact .inr ⟨rfl, by omega⟩
    · exact .inl (by decide)
    · exact .inl (by decide)
  · rintro u j (⟨rfl, h⟩ | ⟨rfl, h, _⟩ | ⟨rfl, _⟩)
    · exact absurd h (memberFails_none (by decide +kernel))
    · exact .inr ⟨rfl, h⟩
    · exact .inl (by decide)
  · rintro u j (⟨rfl, h⟩ | ⟨rfl, h⟩ | ⟨rfl, _⟩)
    · exact absurd h (memberFails_none (by decide +kernel))
    · exact absurd h (profileFails_none (by decide +kernel))
    · exact .inr ⟨rfl, Nat.zero_le _⟩

theorem test_meets_CommitsAreJudged :
    h0.admitted ∧ (s0.io.es.pending = none ∧
      (s0.onIo (Io.onEs fun e => { e with pending := some .now })).io.es.pending ≠ none ∧
      windowMethodCode .cycle = 2 ∧ windowMethodCode .quiet = 4) ∧
    WindowsValid (2 ^ s0.tb.params.exponent) s0.io.es.staged ∧
    (let late : Window := { inUse := true, start := 8191, length := 2 }
     (stagedWindow 1 late).io.es.staged = windows late ∧ WindowFails 8192 (windows late) 1 ∧
      ∀ j, j < 1 → ¬ WindowFails 8192 (windows late) j) ∧
    (committing.se.pending ≠ none ∧ s0.se.pending = none ∧ schedMethodCode .nextMinute = 2 ∧ schedMethodCode .nextDay = 3) ∧
    SchedValid s0.se.staged ∧
    served.su.table[0]? = some (some (entry (.serving .fp1 al))) ∧ StationsDistinct served ∧
    (entry (.serving .fp1 al)).st.served = true := by
  refine ⟨h0_admitted, by decide +kernel, windowsValid_s0, ⟨by decide +kernel, .inr ⟨_, rfl, rfl, .inr (.inl (by decide))⟩, ?_⟩,
    by decide +kernel, schedValid_s0, by decide +kernel, stationsDistinct_one _ _ rfl, rfl⟩
  intro j hj h
  have := windowFails_second h
  omega

theorem test_meets_DiscardsRestoreTheStagedCopies : h0.admitted := h0_admitted

/-- The reset state with one event pending in the category STATION and in CONTROL. -/
def reported : State := s0.onIo fun io => raise (.restarted 1 0) (raise (.noEntry 5 .fp1) io)

theorem test_meets_EventAndAdmissionRequests :
    h0.admitted ∧
    (∀ c : Category, ¬ ((511 : Nat).testBit (categoryCode c - 1) = true ∧ (s0.io.cu.events.get c).enable = false ∧
      (s0.io.cu.events.get c).pending = true)) ∧
    (let comes (c : Category) : Prop := (2 : Nat).testBit (categoryCode c - 1) = true ∧
       (reported.io.cu.events.get c).enable = false ∧ (reported.io.cu.events.get c).pending = true
     comes .station ∧ ∀ d, comes d → d = .station) ∧
    (portNum .fp3 = 3 ∧ admissionCode .none = 1 ∧ admissionCode .manage = 3) := by
  refine ⟨h0_admitted, ?_, ⟨by decide +kernel, ?_⟩, by decide⟩
  · intro c; cases c <;> decide +kernel
  · intro d; cases d <;> decide +kernel

theorem test_meets_RegisterControllerWritesTheRegistration :
    h0.admitted ∧ (8 : Nat) ≠ 0 ∧ (9 : Nat) ≠ 0 ∧ 2 < 3 ∧ (BitVec.twoPow 48 40).getLsbD 40 = true ∧ portNum .fp0 = 0 ∧
      portNum .fp2 = 2 ∧ (9#48).getLsbD 40 = false := ⟨h0_admitted, by decide⟩

theorem test_meets_RestartKeepsAndClears :
    h0.admitted ∧ (withFlow flow s0).cl.flowAt 0 = some flow ∧ flow.pinned = false ∧
    (withFlow { flow with pinned := true } s0).cl.flowAt 0 = some { flow with pinned := true } ∧
    (distributing (dist .announce)).ie.dist = some (dist .announce) := ⟨h0_admitted, by decide +kernel⟩

theorem test_meets_StatusAndCounterRequests :
    h0.readable ∧ h0.admitted ∧ (countersOf 1 s0).isSome = true ∧ (countersOf 9 s0).isSome = true ∧ s0.entry 5 = none ∧
    served.entry 5 = some (entry (.serving .fp1 al)) := ⟨h0_readable, h0_admitted, by decide +kernel⟩

theorem test_meets_OverridesAndBonuses :
    h0.admitted ∧ s0.se.overrides[0]?.isSome = true ∧ s0.se.overrides[30]?.isSome = true ∧
    served.su.table[0]? = some (some (entry (.serving .fp1 al))) ∧ StationsDistinct served ∧
    (let e : Station := { entry (.serving .fp1 al) with profile := 31 }
     (withEntry e s0).su.table[0]? = some (some e) ∧ StationsDistinct (withEntry e s0) ∧ e.profile = 31 ∧ e.st.served = true) :=
  ⟨h0_admitted, by decide +kernel, by decide +kernel, by decide +kernel, stationsDistinct_one _ _ rfl, by decide +kernel,
    stationsDistinct_one _ _ rfl, rfl, rfl⟩

/-! ### Requests of the Image Engine -/

theorem test_meets_ImageRequestsMoveTheStagingSlot :
    h0.admitted ∧
    (∃ d, (distributing (dist .stream)).ie.dist = some d ∧ d.phase ≠ .done ∧ d.phase ≠ .aborted) ∧
    (s0.ie.dist = none ∧ (s0.ie.slot (!s0.ie.active)).held = none) ∧
    ((staged (.armed 7)).ie.slot (!(staged (.armed 7)).ie.active)).held = some (held (.armed 7)) ∧
    ((staged .failed).ie.slot (!(staged .failed).ie.active)).held = some (held .failed) ∧
    ((staged .complete).ie.slot (!(staged .complete).ie.active)).held = some (held .complete) ∧
    (staged .receiving).ie.dist = none :=
  ⟨h0_admitted, ⟨_, rfl, by decide, by decide⟩, by decide +kernel⟩

def block : List Byte := List.replicate 1024 0

theorem block_length : block.length = 1024 := List.length_replicate

theorem test_meets_BlocksEnterTheWriteQueue :
    let s := staged .receiving
    h0.admitted ∧ ((s0.ie.slot (!s0.ie.active)).held = none) ∧
    ((s.ie.slot (!s.ie.active)).held = some (held .receiving) ∧ (held .receiving).st = .receiving) ∧
    ((held .receiving).img.count ≤ 2 ∧ 1 < (held .receiving).img.count ∧ (held .receiving).map[1]? ≠ some true ∧
      s.ie.writeQ = []) ∧
    ((∀ data, crc16 data ≠ crc16 data + 1) ∧ block.length = 1024 ∧ 5 ≤ s.io.fp.freeCells ∧ (held .receiving).img.id = 9) ∧
    (let q : List WriteEntry := [{ load := 1, index := 1, data := [], cells := 4 }]
     (∃ w ∈ q, w.index = 1) ∧ q.length < 8) ∧
    8 ≤ (List.replicate 8 ({ load := 1, index := 0, data := [], cells := 4 } : WriteEntry)).length :=
  ⟨h0_admitted, by decide +kernel, by decide +kernel, by decide +kernel,
    ⟨fun _ => (Nat.succ_ne_self _).symm, block_length, by decide +kernel⟩, by decide +kernel⟩

theorem test_meets_DistributionsStartAndAbort :
    let s := staged .verified
    h0.admitted ∧ 7 < (List.replicate 8 2).length ∧ (∃ n ∈ [1], n = s.io.fp.nodeId) ∧ ¬ [2, 2].Nodup ∧
    (¬ (7 < [2, 8].length ∨ (∃ n ∈ [2, 8], n = 0 ∨ 8 < n ∨ n = s.io.fp.nodeId) ∨ ¬ [2, 8].Nodup)) ∧
    (s.ie.dist = none ∧ (s.ie.slot (!s.ie.active)).held = some (held .verified) ∧ (held .verified).img.id = 9) ∧
    (distributing (dist .armed)).ie.dist = some (dist .armed) ∧ (dist .armed).phase ≠ .done ∧ (dist .armed).phase ≠ .aborted :=
  ⟨h0_admitted, by decide +kernel⟩

/-! ### Cycle starts and the Egress Service -/

theorem test_meets_CycleStartsMoveTheBlock :
    s0.tb.count = s0.tb.lastCount ∧
    (∀ n ∈ [1, 63, 64], (later n (follower .listen)).tb.count ≠ 0 ∨ n = 64) ∧
    ((later 1 root).tb.count ≠ (later 1 root).tb.lastCount ∧ (later 1 root).tb.preset = none ∧ root.tb.sync = .root ∧
      1 ≤ root.io.fp.freeCells ∧ root.tb.params.exponent ≤ 16) ∧
    (let s := (later 64 (follower .listen)).onTb fun t => { t with lastCount := 63 }
     s.tb.count ≠ s.tb.lastCount ∧ s.tb.sync ≠ .root ∧ s.tb.count = 0) ∧
    (let s := (later 1 (follower .listen)).onTb fun t => { t with listenWatch := 31, params := { t.params with priority := 6 } }
     s.tb.params.rootWatch ≤ min (s.tb.listenWatch + 1) 255 ∧ s.tb.params.priority ≤ 6) ∧
    (let s := (later 1 (follower .holdover)).onTb fun t => { t with beaconWatch := 255 }
     s.tb.params.rootWatch ≤ min (s.tb.beaconWatch + 1) 255 ∧ ¬ s.tb.params.priority ≤ 6 ∧ s.tb.sync = .holdover) ∧
    (let s := (later 1 (follower .track)).onTb fun t => { t with beaconWatch := 3 }
     s.tb.params.beaconWatch ≤ min (s.tb.beaconWatch + 1) 255) ∧
    (let s := (later 1 (follower .listen)).onTb fun t => { t with listenWatch := 31, params := { t.params with priority := 6 } }
     s.tb.sync = .listen ∧ s.tb.count ≠ s.tb.lastCount ∧ s.tb.preset = none ∧ 2 ≤ s.io.fp.freeCells ∧
      s.tb.params.exponent ≤ 16) ∧
    (∀ m ∈ [WindowMethod.cycle, .round, .quiet],
      ((later 1 root).onIo (Io.onEs fun e => { e with pending := some m })).io.es.pending = some m) ∧
    ((later 1 root).onTb fun t => { t with quietMark := some 8192 }).tb.quietMark =
      some (BitVec.ofNat 48 ((later 1 root).mt.toNat / 2 ^ 13 * 2 ^ 13)) := by
  decide +kernel

/-- A state at the start of a round. -/
def rounding (s : State) : State := (later 64 s).onTb fun t => { t with lastCount := 63 }

theorem test_meets_FlowPeriodsEnd :
    let p : ClassifierParams := {}
    let score (f : Flow) : Nat :=
      if p.pmin ≤ f.packets ∧ f.packets ≤ p.pmax ∧ f.bytes ≤ f.packets * p.smax then min (f.q + 1) 7 else f.q - 1
    let found : Flow := { flow with packets := 20, bytes := 200, q := 2 }
    let lost : Flow := { flow with q := 1, detected := true, clsClass := 0, effClass := 0 }
    let s := rounding (withFlow found (withEntry (entry (.away none none)) s0))
    (s.tb.count ≠ s.tb.lastCount ∧ s.tb.count = 0 ∧ s.tb.sync ≠ .root ∧ s.cl.flows.length = 512 ∧ s.cl.params = p) ∧
    (s.cl.flows[0]? = some (some found) ∧ s.cl.flows[511]? = some none) ∧
    (found.key.proto = .udp ∧ found.pinned = false ∧ score found = 3 ∧ p.tp ≤ score found ∧ found.detected = false ∧
      ({ found with cur := true } : Flow).cur = true) ∧
    (score lost = 0 ∧ lost.detected = true ∧ lost.pinned = false) ∧
    ({ flow with pinned := true } : Flow).pinned = true ∧
    (({ flow with idle := 6 } : Flow).idle + 1 < p.idle ∧ p.idle ≤ ({ flow with idle := 255 } : Flow).idle) ∧
    (s.entry found.key.station = some (entry (.away none none)) ∧ (entry (.away none none)).st.isAway = true ∧
      (entry (.serving .fp1 al)).st.isAway = false) ∧
    (s.io.cu.events.get .flow).pending = false := by decide +kernel

/-- A station heard here and served by node 2, and a hearing record of node 3 at a level. -/
def heardAway : Station := { entry (.away (some 2) none) with level := some (-1000), own := some (-60), heard := true }

def hears (level : Int) : Station :=
  { entry (.serving .fp1 al) with level := some (-1300), hearings := [some ⟨3, level, 0⟩, none, none, none], dwell := 2 }

theorem test_meets_StationPeriodsEnd :
    let s := rounding (withEntry heardAway s0)
    (s.tb.count ≠ s.tb.lastCount ∧ s.tb.count = 0 ∧ s.tb.sync ≠ .root ∧ StationsDistinct s) ∧
    (s.su.table[0]? = some (some heardAway) ∧ s.su.table[1]? = some none ∧ heardAway.st = .away (some 2) none ∧
      2 ≠ s.io.fp.nodeId ∧ heardAway.heard = true ∧ heardAway.level = some (-1000)) ∧
    (s.io.cu.reg = none ∧ 17 ≤ s.io.fp.freeCells ∧ (∀ x ∈ s.hu.slots, x.ctx = none) ∧
      (∀ e ∈ s.su.table.filterMap id, e.heard = true → e.level ≠ none) ∧ (s.io.port .fp3).mgmt.length + 1 ≤ 16 ∧
      16 ≤ ((full .fp3).io.port .fp3).mgmt.length) ∧
    (let h : Hearing := ⟨3, -1100, 0⟩
     let e := hears (-1100)
     let s := rounding (withEntry e s0)
     StationsDistinct s ∧ s.su.table[0]? = some (some e) ∧ some h ∈ e.hearings ∧
      (s.mt - h.mt).toInt < 4 * 2 ^ (s.tb.params.exponent + 6) ∧ e.holdOff = 0 ∧ e.level = some (-1300) ∧
      (-1300 + 16 * s.su.params.hyst ≤ h.level ∧ -1300 < 16 * s.su.params.thresh ∧
        -1300 + 16 * s.su.params.gameHyst ≤ h.level ∧ -1300 < 16 * s.su.params.gameThr) ∧
      s.su.params.dwell ≤ e.dwell + 1 ∧ ({ e with dwell := 1 } : Station).dwell + 1 < s.su.params.dwell ∧
      ¬ (-1300 + 16 * s.su.params.hyst ≤ -1200) ∧ 0 < ({ e with holdOff := 1 } : Station).holdOff ∧
      ({ e with level := none } : Station).level = none) := by
  refine ⟨⟨by decide +kernel, by decide +kernel, by decide +kernel, stationsDistinct_one _ _ rfl⟩, by decide +kernel,
    by decide +kernel, stationsDistinct_one _ _ rfl, by decide +kernel⟩

theorem test_meets_WindowInEffectAndAirtime :
    let e : Egress := s0.io.es
    (∀ h, ({ frame with hdr := some { src := 1, dst := 8 } } : QFrame).hdr = some h → 1 ≤ h.dst) ∧
    e.peers[7]?.isSome = true ∧ (e.peers.zipIdx 1).filter (fun x => x.1.inUse && x.2 != 1) = [] ∧
    (let p := e.peers.set 1 { inUse := true, rate := 6 }
     ∃ x ∈ (p.zipIdx 1).filter (fun x => x.1.inUse && x.2 != 1), x.1.rate = 6) := by
  refine ⟨?_, by decide +kernel⟩
  intro h hh
  cases hh
  decide

/-- A port with frames in its queues, for which a choice is due. -/
def queued (p : Port) (mgmt : List QFrame) (q : PerClass (List QFrame)) (s : State) : State :=
  { s with io := s.io.onPort p fun e => { e with mgmt := mgmt, queue := q, choiceDue := true } }

/-- Credit for the classes of a port. -/
def credited (p : Port) (c : PerClass Int) (s : State) : State := { s with io := s.io.onPort p fun e => { e with credit := c } }

theorem test_meets_FramesAreChosenAndCharged :
    let own (s : State) (f : QFrame) : Prop :=
      s.tb.quietNow = false ∧ (∀ w, s.io.es.current s.tb = some w → w.kind = .opened ∧
        s.tb.mt.toNat % 2 ^ s.tb.params.exponent + s.io.es.airtime s.io.fp.nodeId f + s.io.es.guardTime ≤
          w.start + w.length) ∧ (s.io.es.current s.tb).isSome = true
    let open_ : State := s0.onTb fun t => { t with lt := 512 }
    let one := queued .fp3 [] ⟨[], [frame], [frame], []⟩ open_
    ((s0.io.port .fp0).tx = .free ∧ (s0.io.port .fp0).choiceDue = false ∧
      ((s0.io.onPort .fp0 fun e => { e with tx := .givenUp .data }).port .fp0).tx ≠ .free) ∧
    (beaconing.io.es.beaconPos.isSome = true ∧ (beaconing.io.port .fp3).tx = .free ∧
      (beaconing.io.port .fp3).choiceDue = true ∧ s0.io.es.beaconPos = none) ∧
    (∀ p ∈ Port.all, ((queued p [frame] ⟨[], [], [], []⟩ s0).io.port p).choiceDue = true ∧
      ((queued p [frame] ⟨[], [], [], []⟩ s0).io.port p).tx = .free) ∧
    (((queued .fp3 [frame] ⟨[], [], [], []⟩ open_).io.port .fp3).mgmt.head? = some frame ∧ own open_ frame) ∧
    ((one.io.port .fp3).mgmt = [] ∧ ((one.io.port .fp3).queue.get 1).head? = some frame ∧ own one frame ∧
      0 < ((credited .fp3 ⟨0, 1, 0, 0⟩ one).io.port .fp3).credit.get 1) ∧
    ((one.io.port .fp3).credit.get 1 ≤ 0 ∧ ((one.io.port .fp3).inUse.get 1).borrow = false ∧
      ((one.io.port .fp3).credit.get 2 ≤ 0 ∧ ((one.io.port .fp3).inUse.get 2).borrow = true)) ∧
    (((queued .fp0 [] ⟨[frame], [], [], []⟩ s0).io.port .fp0).queue.get 0).head? = some frame ∧
    ((s0.io.port .fp0).inUse.get 0).borrow = false := by
  have hc : ∀ s : State, s.io.es.current s.tb =
      some { inUse := true, start := 512, length := 7680, kind := .opened, mask := ⟨true, true, true, true⟩ } →
      s.tb.mt.toNat % 2 ^ s.tb.params.exponent + s.io.es.airtime s.io.fp.nodeId frame + s.io.es.guardTime ≤ 512 + 7680 →
      (∀ w, s.io.es.current s.tb = some w → w.kind = .opened ∧
        s.tb.mt.toNat % 2 ^ s.tb.params.exponent + s.io.es.airtime s.io.fp.nodeId frame + s.io.es.guardTime ≤
          w.start + w.length) := by
    intro s hs hl w hw
    rw [hs] at hw
    cases hw
    exact ⟨rfl, hl⟩
  exact ⟨by decide +kernel, by decide +kernel, by decide +kernel,
    ⟨by decide +kernel, by decide +kernel, hc _ (by decide +kernel) (by decide +kernel), by decide +kernel⟩,
    ⟨by decide +kernel, by decide +kernel, ⟨by decide +kernel, hc _ (by decide +kernel) (by decide +kernel), by decide +kernel⟩,
      by decide +kernel⟩, by decide +kernel, by decide +kernel, by decide +kernel⟩

/-- A frame too long for a window of 100 MU. -/
def long : QFrame := { frame with content := .data (List.replicate 1000 0), cells := 4 }

def shortWindow : Window :=
  { inUse := true, start := 512, length := 100, kind := .opened, mask := ⟨true, true, true, true⟩ }

/-- No event since the last choice: FRAME_RELEASE leaves the head where it is (R73). -/
theorem test_release_waits_for_an_event :
    let s := queued .fp0 [frame] ⟨[], [], [], []⟩ s0
    let idle : State := { s with io := s.io.onPort .fp0 fun e => { e with choiceDue := false } }
    (after (.frameRelease .fp0) s).io.port .fp0 = { s.io.port .fp0 with mgmt := [], tx := .busy frame, choiceDue := false } ∧
      (after (.frameRelease .fp0) idle).io.port .fp0 = idle.io.port .fp0 := by decide +kernel

theorem test_meets_WindowOpeningsDropOversizeHeads :
    let open_ : State := (queued .fp3 [long, frame] ⟨[], [], [], [frame]⟩ s0).onTb fun t => { t with lt := 512 }
    let slow : State := open_.onIo (Io.onEs fun e => { e with active := e.active.set 1 shortWindow })
    let w := shortWindow
    settled.io.es.seen = some (settled.io.es.inEffect settled.tb) ∧
    (s0.io.es.seen ≠ some (s0.io.es.inEffect s0.tb) ∧ s0.io.es.inEffect s0.tb = .window 0) ∧
    (slow.io.es.seen ≠ some (slow.io.es.inEffect slow.tb) ∧ slow.io.es.inEffect slow.tb = .window 1 ∧
      slow.io.es.active[1]? = some w ∧ slow.tb.quietNow = false ∧ w.kind = .opened) ∧
    ((slow.io.port .fp3).mgmt = [long, frame] ∧ long.hdr = some { src := 1, dst := 2 } ∧ long.mark = none ∧
      ¬ slow.io.es.airtime slow.io.fp.nodeId long + slow.io.es.guardTime ≤ w.length ∧
      slow.io.es.airtime slow.io.fp.nodeId frame + slow.io.es.guardTime ≤ w.length ∧ slow.io.cu.reg = none) ∧
    ((slow.io.port .fp3).queue.get 3 = [frame] ∧ w.mask.get 3 = true) ∧
    (let gap : Egress := { s0.io.es with active := [] }
     gap.inEffect s0.tb = .gap ∧ gap.seen ≠ some .gap) := by decide +kernel

theorem test_meets_TransmitDoneEndsAFrame :
    let busy (f : QFrame) : State := { s0 with io := s0.io.onPort .fp3 fun e => { e with tx := .busy f } }
    let marked : QFrame := { frame with mark := some ⟨0, 1⟩ }
    let beacon : QFrame := { frame with content := .beacon ⟨1, 1, 13, false, false, 0, none⟩ }
    let c : State := withCtx (.depart false 0 2 65534 1 none) (busy marked)
    (s0.io.port .fp3).tx = .free ∧ ((busy frame).io.port .fp3).tx = .busy frame ∧
    (frame.mark = none ∧ frame.kind ≠ .beacon ∧ beacon.kind = .beacon ∧ beacon.mark = none ∧
      ({ frame with hdr := none } : QFrame).hdr = none) ∧
    ((c.io.port .fp3).tx = .busy marked ∧ marked.hdr = some { src := 1, dst := 2 } ∧ marked.kind = .data ∧
      c.hu.slots[0]? = some { gen := 1, ctx := some (ctx (.depart false 0 2 65534 1 none)) } ∧ 65534 < 65535 ∧
      (c.hu.slots[1]?.map (·.ctx)) = some none) := by decide +kernel

/-! ### Frames arriving -/

/-- A mesh frame of a kind code with a version and nodes, of no payload. -/
def mesh (version kind src dst : Nat) : List Byte :=
  be 1 version ++ be 1 kind ++ be 1 0 ++ be 1 0 ++ be 1 src ++ be 1 dst ++ be 6 0 ++ be 2 0 ++ be 4 0

/-- The reset state with a number of free cells. -/
def freeState (n : Nat) : State := s0.onIo (Io.onFp fun f => { f with freeCells := n })

theorem test_meets_FrameChecksInOrder :
    ((mesh 1 3 1 1).length = 18 ∧ field (mesh 1 3 1 1) 1 1 = 3 ∧ kindOf 3 = some .control ∧
      (18 + 255) / 256 ≤ s0.io.fp.freeCells ∧ (freeState 0).io.fp.freeCells < (18 + 255) / 256) ∧
    ((mesh 1 3 1 1).drop 1).length < 18 ∧ (1518 < 1519 ∧ 1536 < 1537) ∧
    (field (mesh 2 2 1 1) 0 1 ≠ 1 ∧ field (mesh 1 6 0 1) 4 1 = 0 ∧ 8 < field (mesh 1 6 9 1) 4 1 ∧
      8 < field (mesh 1 6 8 9) 5 1 ∧ field (mesh 1 6 8 8 ++ [0]) 12 2 ≠ (mesh 1 6 8 8 ++ [0]).length - 18) ∧
    (let f := mesh 1 7 8 8 ++ List.replicate 14 0
     field f 1 1 = 7 ∧ f.length = 32 ∧ field f 12 2 ≠ f.length - 18) ∧
    (let f := (mesh 1 7 8 8).set 13 14 ++ List.replicate 14 0
     6 < field f 1 1 ∧ f.length = 32 ∧ field f 0 1 = 1 ∧ field f 4 1 = 8 ∧ field f 5 1 = 8 ∧ field f 12 2 = f.length - 18) ∧
    (let f := be 12 0 ++ be 2 0x8AF3 ++ mesh 1 2 8 0
     field f 12 2 = 0x8AF3 ∧ f.length = 32 ∧ field (f.drop 14) 1 1 = 2 ∧ field (f.drop 14) 12 2 = (f.drop 14).length - 18) ∧
    (field (mesh 1 3 8 8) 5 1 ≠ 0 ∧ field (mesh 1 3 8 8) 5 1 ≠ s0.io.fp.nodeId) := by decide +kernel

theorem test_meets_FramesAreTheirRows :
    (linkFrame.length = 14 ∧ field linkFrame 12 2 ≠ 0x8AF3) ∧ (1 ≤ 1 ∧ 8 ≤ 8 ∧ (1 = s0.io.fp.nodeId ∨ 1 = 0)) ∧
    (fits 2 0 = true ∧ fits 2 65535 = true ∧ fits 4 (2 ^ 32 - 1) = true) ∧
    (5 ≤ [2, 0, 0, 0, 1].length ∧ field [2, 0, 0, 0, 1] 0 1 = 2) ∧ (be 12 0).length = 12 ∧
    (Claim.wf ⟨5, 8, 0, -1⟩ = true ∧ release8.wf = true ∧ HearingMsg.wf ⟨5, 8, -1⟩ = true ∧
      Beacon.wf ⟨8, 7, 255, true, true, -1, none⟩ = true ∧ MapContent.wf ⟨.none, false, []⟩ = true) ∧
    block.length = 1024 ∧ DeferReason.none ≠ .late :=
  ⟨by decide +kernel, by decide +kernel, by decide +kernel, by decide +kernel, by decide +kernel, by decide +kernel,
    block_length, by decide⟩

/-- The flow of a link frame at a station. -/
def flowOf (a : Addr) : Flow := { flow with key := flowKey a linkFrame }

/-- A flow table without an empty slot: 512 flows that differ in their remote port. -/
def fullFlows (f : Flow) : List (Option Flow) := (List.range 512).map fun i => some { f with key := { f.key with rPort := i } }

theorem fullFlows_get {f g : Flow} {i : Nat} (h : (fullFlows f)[i]? = some (some g)) :
    g = { f with key := { f.key with rPort := i } } := by
  rw [fullFlows, List.getElem?_map] at h
  by_cases hi : i < 512
  · rw [List.getElem?_range hi] at h
    exact (Option.some.inj (Option.some.inj h)).symm
  · rw [List.getElem?_eq_none (by simpa using Nat.le_of_not_lt hi)] at h
    cases h

/-- The reset state with an entry at 9 and a full table of such flows. -/
def crowded (f : Flow) : State :=
  { withEntry { entry (.serving .fp2 al) with addr := 9 } s0 with cl := { s0.cl with flows := fullFlows f } }

theorem crowded_get {f g : Flow} {i : Nat} (h : (crowded f).cl.flows[i]? = some (some g)) :
    g = { f with key := { f.key with rPort := i } } := by
  simp only [crowded] at h
  exact fullFlows_get h

theorem flowsDistinct_full (f : Flow) : FlowsDistinct (crowded f) := by
  refine ⟨by simp [crowded, fullFlows, Config.flowCount], ?_⟩
  intro i j a b hi hj hk
  rw [crowded_get hi, crowded_get hj] at hk
  exact congrArg FlowKey.rPort hk

/-- Where every flow of a full table may go, the first goes; where every one is pinned, none may. -/
theorem test_meets_evictions :
    StationsDistinct (crowded flow) ∧ FlowsDistinct (crowded flow) ∧
    (∀ (k : Nat) (g : Flow), (crowded flow).cl.flows[k]? = some (some g) → g.key ≠ flowKey (linkSrc linkFrame) linkFrame) ∧
    (∀ o ∈ (crowded flow).cl.flows, o.isSome = true) ∧
    (let candidate (f : Flow) (k : Nat) (g : Flow) : Prop :=
       (crowded f).cl.flows[k]? = some (some g) ∧ g.pinned = false ∧ g.cur = false ∧ g.prev = false
     candidate flow 0 { flow with key := { flow.key with rPort := 0 } } ∧
      (∀ k g, candidate flow k g → g.lastSeen = flow.lastSeen ∧ 0 ≤ k) ∧
      ∀ k g, ¬ candidate { flow with pinned := true } k g) := by
  have h9 := stationsDistinct_one { entry (.serving .fp2 al) with addr := 9 } s0 rfl
  refine ⟨⟨h9.1, h9.2⟩, flowsDistinct_full flow, ?_, by decide +kernel, ⟨by decide +kernel, ?_, ?_⟩⟩
  · intro k g h hk
    rw [crowded_get h] at hk
    have h5 := congrArg FlowKey.station hk
    change flow.key.station = _ at h5
    exact absurd h5 (by decide +kernel)
  · intro k g h
    rw [crowded_get h.1]
    exact ⟨rfl, Nat.zero_le k⟩
  · intro k g h
    have := h.2.1
    rw [crowded_get h.1] at this
    cases this

/-- Stages 1 to 4 of the intake let a frame through, given its cells. -/
def passes (p : Port) (hdr : Option DataHdr) (bytes : List Byte) (s : State) : Bool :=
  let n := (bytes.length + (if hdr.isSome then 18 else 0) + 255) / 256
  let address : Option Addr := match p with
    | .fp0 => if (linkDst bytes).getLsbD 40 then none else some (linkDst bytes)
    | .fp1 => some (linkSrc bytes)
    | .fp2 => some (linkSrc bytes)
    | .fp3 => hdr.bind fun h => if h.station = 0 then none else some h.station
  n + 64 ≤ s.io.fp.freeCells && (p = .fp3) == hdr.isSome &&
    !(classify p (address.bind s.entry) (hdr.map (·.cls)) bytes
      { s with io := countFp (fun k => { k with framesIn := k.framesIn.inc p }) (takeCells n s.io) }).suppressed

/-- A frame to all, a frame from node 3 without and with the FWD flag for station 5. -/
def groupFrame : List Byte := be 6 (2 ^ 48 - 1) ++ be 6 9 ++ be 2 0x1234

def from3 (fwd : Bool) : DataHdr := { fwd := fwd, cls := 1, src := 3, station := 5 }

def waits : CtxState := .await waiting 2 60 0 0 65534

def forwarding (o : Nat) : CtxState := .depart false 0 2 0 o (some al)

def flushing : CtxState := .depart true 0 2 0 1 (some al)

/-- An entry of a state at 5, with a context beside it. -/
def both (st : StState) (c : CtxState) : State := withCtx c (withEntry (entry st) s0)

theorem test_meets_DataFramesAreRouted :
    ((linkDst groupFrame).getLsbD 40 = true ∧ passes .fp0 none groupFrame s0 = true ∧ passes .fp1 none groupFrame s0 = true ∧
      passes .fp2 none groupFrame s0 = true ∧ passes .fp3 (some (from3 false)) groupFrame s0 = true) ∧
    ((linkDst linkFrame).getLsbD 40 = false ∧ s0.entry (linkDst linkFrame) = none ∧ s0.io.fp.gateway = true ∧
      (∀ p ∈ [Port.fp0, .fp1, .fp2], passes p none linkFrame s0 = true) ∧ passes .fp3 (some (from3 false)) linkFrame s0 = true) ∧
    (∀ g ∈ [1, 2], let s := s0.onIo (Io.onFp fun f => { f with gateway := false, gatewayId := g })
      s.io.fp.gateway = false ∧ s.io.fp.gatewayId = g ∧ s.io.fp.nodeId = 1 ∧ passes .fp1 none linkFrame s = true) ∧
    (served.entry (linkDst linkFrame) = some (entry (.serving .fp1 al)) ∧ passes .fp2 none linkFrame served = true) ∧
    (let s := both (.arriving (some .fp1) 0) (.arrive waiting)
     s.entry 5 = some (entry (.arriving (some .fp1) 0)) ∧ s.arriveOf 5 = some (0, ctx (.arrive waiting)) ∧
      passes .fp2 none linkFrame s = true ∧ passes .fp3 (some (from3 true)) linkFrame s = true ∧ waiting.taken = none ∧
      queueCells waiting.hold + 1 ≤ 64 ∧ s.hu.holdCells + 1 ≤ 512 ∧
      ¬ queueCells ({ waiting with hold := List.replicate 64 frame } : Waiting).hold + 1 ≤ 64) ∧
    (let s := both (.arriving none 0) (.arrive waiting)
     s.entry 5 = some (entry (.arriving none 0)) ∧ passes .fp3 (some (from3 true)) linkFrame s = true) ∧
    (∀ c ∈ [waits, forwarding 65534, flushing],
      let s := both (.away (some 3) none) c
      s.entry 5 = some (entry (.away (some 3) none)) ∧ s.departOf 5 = some (0, ctx c) ∧ s.arriveOf 5 = none ∧
        s.hu.slots[0]? = some { gen := 1, ctx := some (ctx c) } ∧ passes .fp0 none linkFrame s = true ∧
        passes .fp3 (some (from3 false)) linkFrame s = true ∧ passes .fp3 (some (from3 true)) linkFrame s = true) ∧
    (3 ≠ s0.io.fp.nodeId ∧ (from3 false).src = 3 ∧ 65534 < 65535) ∧
    (let s := withEntry (entry (.detached al)) s0
     s.departOf 5 = none ∧ passes .fp2 none linkFrame s = true ∧ passes .fp3 (some (from3 true)) linkFrame s = true) ∧
    (let s := withEntry (entry (.away none none)) s0
     s.departOf 5 = none ∧ passes .fp2 none linkFrame s = true) ∧
    (let s := withEntry (entry (.away (some 2) none)) s0
     s.departOf 5 = none ∧ 2 ≠ (from3 true).src ∧ 2 ≠ s.io.fp.nodeId ∧ passes .fp3 (some (from3 true)) linkFrame s = true) := by
  decide +kernel

theorem test_meets_DataFramesAreClassified :
    (∃ t, exec (.dataFrameArrival .fp1 none linkFrame) s0 = .next t) ∧
    (freeState 64).io.fp.freeCells < (linkFrame.length + 255) / 256 + 64 ∧
    (linkFrame.length = 14 ∧ (14 + 255) / 256 + 64 ≤ (freeState 65).io.fp.freeCells ∧ s0.io.fp.gateway = true ∧
      s0.entry (linkSrc linkFrame) = none ∧ s0.entry (linkDst linkFrame) = none ∧ (linkDst linkFrame).getLsbD 40 = false ∧
      s0.se.active.member (linkSrc linkFrame) = 0 ∧ ∀ x ∈ s0.cl.rules, x.inUse = false) ∧
    ((s0.io.port .fp0).queue.get 2 = [] ∧ 0 + 1 ≤ (s0.io.port .fp0).limit.get 2 ∧
      ((s0.io.onPort .fp0 fun e => { e with limit := e.limit.set 2 0 }).port .fp0).limit.get 2 < 0 + 1) ∧
    (linkDst linkFrame = 5 ∧ linkSrc linkFrame = 9 ∧
      (let s := withFlow (flowOf 5) served
       StationsDistinct s ∧ FlowsDistinct s ∧ s.su.table[0]? = some (some (entry (.serving .fp1 al))) ∧
        s.cl.flows[0]? = some (some (flowOf 5)) ∧ (flowOf 5).rematch = false ∧ (flowOf 5).suppressed = false ∧
        s.io.fp.freeCells = 2048)) ∧
    (let e : Station := { entry (.serving .fp2 al) with addr := 9 }
     let s := withEntry e s0
     StationsDistinct s ∧ FlowsDistinct s ∧ s.su.table[0]? = some (some e) ∧ e.addr = linkSrc linkFrame ∧
      s.cl.flows = List.replicate 512 none) ∧
    (let e := entry (.away none none)
     let s := withFlow (flowOf 5) (withEntry e s0)
     StationsDistinct s ∧ FlowsDistinct s ∧ s.su.table[0]? = some (some e) ∧ e.addr = (from3 false).station ∧
      (from3 false).station ≠ 0 ∧ e.eff = none ∧ s.cl.flows[0]? = some (some (flowOf 5)) ∧
      (flowOf 5).key = flowKey (from3 false).station linkFrame ∧ (from3 false).fwd = false) ∧
    (let s := withFlow { flowOf 5 with suppressed := true } (both (.arriving (some .fp1) 0) (.arrive waiting))
     passes .fp3 (some (from3 true)) linkFrame s = false ∧ 1 + 64 ≤ s.io.fp.freeCells ∧ (from3 true).fwd = true ∧
      s.arriveOf (from3 true).station = some (0, ctx (.arrive waiting)) ∧ waiting.taken = none) :=
  ⟨⟨_, rfl⟩, by decide +kernel, by decide +kernel, by decide +kernel,
    ⟨by decide +kernel, by decide +kernel, stationsDistinct_one _ _ rfl, flowsDistinct_one _ _ rfl, by decide +kernel,
      by decide +kernel, rfl, rfl, by decide +kernel⟩,
    ⟨stationsDistinct_one _ _ rfl, ⟨flowsDistinct_s0.1, flowsDistinct_s0.2⟩, by decide +kernel, by decide +kernel, rfl⟩,
    ⟨stationsDistinct_one _ _ rfl, flowsDistinct_one _ _ rfl, by decide +kernel, by decide +kernel, by decide +kernel, rfl,
      by decide +kernel, rfl, rfl⟩, by decide +kernel⟩

def beacon2 : Beacon := { root := 2, prio := 1, exp := 13, disc := false, quiet := false, mtb := 8192, cal := none }

theorem test_meets_BeaconsMoveTheTimeBase :
    let bad (b : Beacon) (s : State) : Prop := b.prio = 7 ∨ b.exp < 10 ∨ 16 < b.exp ∨ b.exp ≠ s.tb.params.exponent ∨
      b.mtb.toNat % 2 ^ s.tb.params.exponent ≠ 0
    let better (b : Beacon) (n p : Nat) : Prop := b.prio < p ∨ (b.prio = p ∧ b.root < n)
    let zero (b : Beacon) : Prop := b.mtb.toNat / 8192 % 64 = 0
    1 ≤ s0.io.fp.freeCells ∧ { beacon2 with root := 1 }.root = s0.io.fp.nodeId ∧ beacon2.root ≠ s0.io.fp.nodeId ∧
    (bad { beacon2 with prio := 7 } s0 ∧ bad { beacon2 with mtb := 8193 } s0 ∧ ¬ bad beacon2 s0) ∧
    (s0.tb.sync = .free ∧ root.tb.sync = .root ∧ ¬ better beacon2 root.io.fp.nodeId root.tb.params.priority ∧
      better { beacon2 with prio := 0 } root.io.fp.nodeId root.tb.params.priority ∧ ¬ zero beacon2 ∧
      zero { beacon2 with mtb := 64 * 8192 } ∧ zero { beacon2 with mtb := 0 }) ∧
    (beaconing.tb.sync = .root ∧ beaconing.io.es.beaconPos.isSome = true ∧
      better { beacon2 with prio := 0 } beaconing.io.fp.nodeId beaconing.tb.params.priority) ∧
    (∀ st ∈ [SyncState.track, .locked, .holdover], (follower st).tb.sync = st ∧ (follower st).tb.followed = some ⟨2, 1⟩) ∧
    (¬ better { beacon2 with root := 3 } 2 1 ∧ better { beacon2 with root := 3, prio := 0 } 2 1) ∧
    (follower .listen).tb.sync = .listen ∧
    (let s := (follower .locked).onTb fun t => { t with rateAnchor := some (0, 0) }
     s.tb.rateAnchor = some (0, 0) ∧ 2 ^ 16 ≤ ((64 * 8192 : Time) - 0).toNat ∧ ((64 * 8192 : Time) - 0).toNat ≤ 2 ^ 24 ∧
      ¬ (2 ^ 16 ≤ ((0 : Time) - 0).toNat)) ∧
    (∀ c : CalRec, ({ beacon2 with mtb := 0, cal := some ⟨0, 604799, 1⟩ } : Beacon).cal = some c → c.weekSec ≤ 604799) := by
  refine ⟨by decide +kernel, by decide +kernel, by decide +kernel, ⟨by decide +kernel, by decide +kernel, by decide +kernel⟩,
    by decide +kernel, by decide +kernel, by decide +kernel, by decide +kernel, by decide +kernel, by decide +kernel, ?_⟩
  intro c hc
  cases hc
  decide

/-- A claim of node 3 for the station of `entry`, a RELEASE of node 2 for it, and a HEARING of node 2. -/
def claim3 : Claim := { station := 5, claimant := 3, prev := 0, cutover := 1 }

def release2 : Release := { release8 with sender := 2, forwarded := 0, profile := 0 }

theorem test_meets_StationMessagesMoveEntriesAndContexts :
    let arriving (st : CtxState) : State := withCtx st (withEntry (entry (.arriving (some .fp1) 60)) s0)
    (1 ≤ s0.io.fp.freeCells ∧ StationsDistinct s0 ∧ StationsDistinct served) ∧
    ({ claim3 with claimant := 1 }.claimant = s0.io.fp.nodeId ∧ claim3.claimant ≠ s0.io.fp.nodeId) ∧
    (s0.entry claim3.station = none ∧ s0.su.table[0]? = some none) ∧
    (let e := entry (.away (some 2) none)
     (withEntry e s0).su.table[0]? = some (some e) ∧ e.addr = claim3.station ∧ ¬ 0 ≤ (s0.mt - claim3.cutover).toInt ∧
      0 ≤ (s0.mt - { claim3 with cutover := 0 }.cutover).toInt) ∧
    (served.su.table[0]? = some (some (entry (.serving .fp1 al))) ∧ served.hu.slots[0]? = some { gen := 0, ctx := none } ∧
      ∀ y ∈ served.hu.slots, y.ctx = none) ∧
    ((arriving (.arrive waiting)).su.table[0]? = some (some (entry (.arriving (some .fp1) 60))) ∧
      (arriving (.arrive waiting)).hu.slots[0]? = some { gen := 1, ctx := some (ctx (.arrive waiting)) } ∧
      (∀ y ∈ (arriving (.arrive waiting)).hu.slots.drop 1, y.ctx = none)) ∧
    (release2.hints.length ≤ 8 ∧ waiting.taken = none ∧ release2.forwarded ≤ waiting.received ∧
      waiting.received < { release2 with forwarded := 1 }.forwarded ∧
      ({ waiting with taken := some ⟨0, al⟩ } : Waiting).taken ≠ none ∧
      ({ s0.se with minute := some 10079 } : ScheduleEngine).minute = some 10079) ∧
    (let st : CtxState := .await waiting 2 60 0 0 0
     (arriving st).hu.slots[0]? = some { gen := 1, ctx := some (ctx st) } ∧ (ctx st).station = release2.station ∧
      (arriving st).io.cu.reg = none ∧ (arriving st).arriveOf 5 = none ∧
      (both (.away (some 3) none) st).servedOrLeft 5 = false ∧ (both (.serving .fp1 al) st).servedOrLeft 5 = true) ∧
    (let k := ctx (.arrive { waiting with hold := [frame] })
     k.st = .arrive { waiting with hold := [frame] } ∧ (∀ f ∈ [frame], f.cls ≤ 3) ∧ 0 < { k with drops := 1 }.drops) ∧
    ((entry (.serving .fp1 al)).hearings.length = 4 ∧ (entry (.serving .fp1 al)).st.served = true ∧
      (entry (.away none none)).st.served = false) :=
  ⟨⟨by decide +kernel, stationsDistinct_s0, stationsDistinct_one _ _ rfl⟩, by decide +kernel⟩

theorem test_meets_ControlFramesAreQueuedOrRelayed :
    let read : List Byte := [1, 0, 7, 0, 1]
    let manage : List Byte := [1, 0, 7, 0, 13]
    (read.length + 18 + 255) / 256 ≤ s0.io.fp.freeCells ∧
    (¬ (2 = s0.io.fp.nodeId ∨ 2 = 0) ∧ (1 = s0.io.fp.nodeId ∨ 1 = 0)) ∧
    (field [3, 0, 0, 0, 0] 0 1 ≠ 1 ∧ field [3, 0, 0, 0, 0] 0 1 ≠ 2 ∧ field [2, 0, 0, 0, 0] 0 1 = 2 ∧
      [1, 0, 7, 0].length < 5) ∧
    (5 ≤ read.length ∧ field read 0 1 = 1 ∧ field read 3 2 = 1 ∧ field manage 0 1 = 1 ∧ field manage 3 2 = 13) ∧
    (s0.io.cu.admission.get .fp0 = .manage ∧ s0.io.cu.admission.get .fp1 = .none ∧
      (after (.setAdmission h0 0 2) s0).io.cu.admission.get .fp0 = .view) ∧
    s0.io.cu.queue.length < 8 ∧ s0.io.fp.nodeId ≠ 0 ∧ (s0.io.port .fp3).mgmt.length < 16 ∧
    8 ≤ (s0.onIo (Io.onCu fun c => { c with queue := List.replicate 8 (request read) })).io.cu.queue.length ∧
    (s0.io.cu.reg = none ∧ (registered 2 s0).io.cu.reg = some ⟨2, .fp0, 9⟩ ∧ 2 ≠ s0.io.fp.nodeId ∧
      (registered 1 s0).io.cu.reg = some ⟨1, .fp0, 9⟩ ∧ 1 = s0.io.fp.nodeId ∧ (s0.io.port .fp0).mgmt.length < 16) ∧
    ((free 0).io.fp.freeCells < (read.length + 18 + 255) / 256 ∧ 16 ≤ ((full .fp3).io.port .fp3).mgmt.length ∧
      (registered 1 (full .fp0)).io.cu.reg = some ⟨1, .fp0, 9⟩ ∧ 16 ≤ ((registered 1 (full .fp0)).io.port .fp0).mgmt.length ∧
      (full .fp3).io.cu.queue.length < 8 ∧ (full .fp3).io.cu.admission.get .fp0 = .manage) := by
  decide +kernel

/-- A state whose control queue is full and whose FP3 management queue holds `n` frames, with controller 2 registered and
the notices of CONTROL enabled. -/
def overflowing (n : Nat) : State :=
  (registered 2 s0).onIo fun io =>
    (mapEvents (fun c r => if c = .control then { r with enable := true } else r)
      (io.onCu fun c => { c with queue := List.replicate 8 (request [1, 0, 7, 0, 1]) })).onPort .fp3 fun e =>
        { e with mgmt := List.replicate n frame }

theorem test_meets_ControlFramesAreQueuedOrRelayed_overflow :
    let kept (n : Nat) : Io := countFp (fun c => { c with framesIn := c.framesIn.inc .fp0 }) (takeCells 1 (overflowing n).io)
    let overflowed (n : Nat) : Io := raise (.queueOverflow .fp0 7)
      (countCu (fun c => { c with controlOverflow := satInc c.controlOverflow }) (kept n))
    8 ≤ (overflowing 14).io.cu.queue.length ∧ (overflowing 14).io.cu.admission.get .fp0 = .manage ∧
      (overflowing 14).io.cu.admission.get .fp1 = .none ∧ 0 ≠ (overflowing 14).io.fp.nodeId ∧
      ((overflowed 14).port .fp3).mgmt.length < 16 ∧ ¬ ((overflowed 15).port .fp3).mgmt.length < 16 := by decide +kernel

/-- A read for all nodes that overflows the control queue: the notice takes the last place of the FP3 management queue, and
the relayed frame is dropped (R39, R174; log 51). -/
theorem test_overflow_notice_comes_before_the_relay :
    let t := after (.controlRequestArrival .fp0 ⟨0, 0⟩ [1, 0, 7, 0, 1]) (overflowing 15)
    (t.io.port .fp3).mgmt.length = 16 ∧ t.io.cu.counters.noticesSent = 1 ∧ t.io.cu.counters.controlOverflow = 1 ∧
      (t.io.port .fp3).counters.mgmtFull = 1 := by decide +kernel

/-- A CONTROL frame on FP3 for another node is NOT_FOR_NODE whatever its direction and length (R33, R183; log 57), and a
NOTICE of an unlisted category is relayed (R40, R182; log 58). -/
theorem test_control_and_notice_bodies_are_judged_last :
    (∀ payload ∈ [[3, 0, 7, 0, 1], [1]],
      let t := after (.controlRequestArrival .fp3 ⟨2, 3⟩ payload) s0
      t.io.fp.counters.notForNode = 1 ∧ t.io.fp.counters.malformedHeader.fp3 = 0 ∧
        t.io.cu.counters.controlMalformed = 0) ∧
      ((after (.responseNoticeRelay true ⟨2, 1⟩ [2, 99]) (registered 1 s0)).io.port .fp0).mgmt.length = 1 := by
  decide +kernel

/-- A query the pool refuses its cells is outstanding under the next number, and is not counted as sent (R165; log 56). -/
theorem test_query_without_cells_is_outstanding :
    let t := sendQuery .verify { free 0 with ie := { s0.ie with
      queryNum := 4, dist := some { phase := .verify, img := ⟨9, 1, 2, 3⟩, replace := false, targets := [{ node := 2 }], resend := [] } } }
    (t.ie.dist.bind (·.query)).map (·.num) = some 5 ∧ t.ie.counters.queriesSent = 0 ∧
      (t.io.port .fp3).mgmt = [] := by decide +kernel

/-- A root yields by priority 7 with an empty pool: the notice of ROOT_YIELDED takes the unsent beacon's cell (R14, R15;
log 49). -/
theorem test_yield_frees_the_beacon_before_the_notice :
    let s : State := { root with io :=
      (mapEvents (fun c r => if c = .sync then { r with enable := true } else r) (registered 2 (free 0)).io).onEs fun e =>
        { e with beaconPos := some frame } }
    let t := yieldByPriority (s.onTb fun t => { t with params := { t.params with priority := 7 } })
    t.tb.sync = .listen ∧ t.io.es.beaconPos = none ∧ t.io.cu.counters.noticesSent = 1 ∧ t.io.fp.freeCells = 0 := by
  decide +kernel

/-! ### Distributions -/

theorem test_meets_TargetMessagesAreAnswered :
    let slot (s : State) : Option SlotRec := (s.ie.slot (!s.ie.active)).held
    1 ≤ s0.io.fp.freeCells ∧ slot s0 = none ∧ s0.ie.dist = none ∧
    (∃ d, (distributing (dist .poll)).ie.dist = some d ∧ d.phase ≠ .done ∧ d.phase ≠ .aborted) ∧
    (∀ st ∈ [SlotState.erasing, .receiving, .complete, .verifying .controller, .verified, .armed 7, .switched 7, .failed],
      slot (staged st) = some (held st) ∧ (held st).st = st ∧ (held st).img.id = 9 ∧ (staged st).ie.dist = none) ∧
    (img = { img with count := max 1 (min 8192 img.count) } ∧ img ≠ { img with version := 2 }) ∧
    ((held .receiving).map[0]? = some false) ∧
    (0 ≤ (s0.mt - 0).toInt ∧ ¬ 0 ≤ (s0.mt - 1).toInt) ∧
    (let s := withFlow { flow with effClass := 0, cur := true } (withEntry (entry (.serving .fp1 al)) (staged .verified))
     some (entry (.serving .fp1 al)) ∈ s.su.table ∧
      some { flow with effClass := 0, cur := true } ∈ s.cl.flows ∧ (entry (.serving .fp1 al)).st.served = true ∧
      flow.key.station = (entry (.serving .fp1 al)).addr) ∧
    s0.cl.flows = List.replicate 512 none ∧ s0.tb.cal.valid = false ∧
    (let s := after (.setCalendar h0 0) (staged .verified)
     let w : SchedWindow := { inUse := true, start := 10079, stop := 10080, kind := .maintenance }
     s.tb.cal.valid = true ∧ s.tb.cal.minuteOf 1 = 0 ∧ w.inUse = true ∧ w.kind = .maintenance ∧
      ¬ (w.start ≤ 0 ∧ 0 < w.stop)) :=
  ⟨by decide +kernel, by decide +kernel, by decide +kernel, ⟨_, rfl, by decide, by decide⟩, by decide +kernel⟩

theorem test_meets_DistributorRepliesMoveTargets :
    let s (k : QueryKind) (p : Phase) : State := asking k (dist p)
    1 ≤ s0.io.fp.freeCells ∧ s0.ie.dist = none ∧ (dist .stream).query = none ∧
    (∀ k ∈ [QueryKind.announce, .map 0, .verify, .propose, .cancel, .quiet 1],
      (s k .announce).ie.dist = some { dist .announce with query := some ⟨4, k, 0⟩ } ∧
        (dist .announce).targets[(dist .announce).cursor]? = some { node := 2 }) ∧
    (let m : MapContent := { status := .receiving, more := true, ranges := List.replicate 16 (0, 1) }
     m.ranges.length ≤ 16 ∧ m.more = true ∧ m.ranges.getLast? = some (0, 1)) ∧
    (let d : Dist := { dist .poll with targets := [{ node := 2, st := .ready }, { node := 3, st := .missing }] }
     d.cursor < 1 ∧ d.targets[1]? = some { node := 3, st := .missing }) ∧
    (let d : Dist := { dist .propose with
      cutover := some 100000000, targets := [{ node := 2, st := .refused }, { node := 3, st := .verified }] }
     d.cutover = some 100000000 ∧ d.targets[1]? = some { node := 3, st := .verified } ∧
      d.targets[0]? = some { node := 2, st := .refused } ∧
      ¬ 0 ≤ (s0.mt - (100000000 - BitVec.ofNat 48 (s0.ie.params.lead * 1000000 / 2))).toInt) := by decide +kernel

theorem test_meets_DistributorTimesMoveThePhase :
    let late (k : QueryKind) : Dist := { dist .announce with query := some ⟨4, k, 0⟩ }
    s0.ie.dist = none ∧ (dist .announce).query = none ∧
    (∀ k ∈ [QueryKind.announce, .map 0, .verify, .cancel], (distributing (late k)).ie.dist = some (late k) ∧
      0 ≤ ((distributing (late k)).tb.lt - 0).toInt ∧ (late k).targets[(late k).cursor]? = some { node := 2 }) ∧
    ¬ 0 ≤ (s0.tb.lt - 1).toInt ∧
    (({ node := 2, retries := 3 } : Target).retries < 3 + 1 ∧ s0.ie.params.announceRetries ≤ 3 ∧
      0 < s0.ie.params.verifyRetries) ∧
    (let d : Dist := { dist .propose with stage := .waiting 0 }
     d.phase = .propose ∧ d.stage = .waiting 0 ∧ 0 ≤ (s0.tb.lt - 0).toInt ∧ (follower .holdover).tb.sync = .holdover ∧
      (follower .holdover).tb.followed = some ⟨2, 1⟩) ∧
    (let d : Dist := { dist .armed with cutover := some 0 }
     d.phase = .armed ∧ d.cutover = some 0 ∧ 0 ≤ (s0.mt - 0).toInt ∧ ¬ 0 ≤ (s0.mt - 1).toInt) ∧
    (let d : Dist := { dist .stream with streamPos := 2, targets := [{ node := 2, st := .refused }, { node := 3, st := .ready }] }
     d.phase = .stream ∧ d.img.count ≤ d.streamPos ∧ (dist .stream).streamPos < (dist .stream).img.count ∧
      s0.io.blockFrames = 0 ∧ d.targets[1]? = some { node := 3, st := .ready } ∧
      d.targets[0]? = some { node := 2, st := .refused }) ∧
    ((dist .resend).phase = .resend ∧ true ∉ (dist .resend).resend ∧ true ∈ { dist .resend with resend := [true] }.resend) ∧
    (let f : QFrame := { frame with content := .image ⟨0, 9, .block 0 0 []⟩, cls := 3 }
     0 < (queued .fp3 [] ⟨[], [], [], [f]⟩ s0).io.blockFrames) := by decide +kernel

/-! ### Stations, minutes, handoffs, flash -/

/-- The reset state with entries of one state in all slots, at the addresses 1000 to 1191. -/
def filled (st : StState) : State :=
  s0.onSu fun u => { u with table := (List.range 192).map fun i => some { entry st with addr := BitVec.ofNat 48 (1000 + i) } }

theorem filled_get {st : StState} {e : Station} {i : Nat} (h : (filled st).su.table[i]? = some (some e)) :
    i < 192 ∧ e = { entry st with addr := BitVec.ofNat 48 (1000 + i) } := by
  have ht : (filled st).su.table = (List.range 192).map fun i => some { entry st with addr := BitVec.ofNat 48 (1000 + i) } := rfl
  rw [ht, List.getElem?_map] at h
  by_cases hi : i < 192
  · rw [List.getElem?_range hi] at h
    exact ⟨hi, (Option.some.inj (Option.some.inj h)).symm⟩
  · rw [List.getElem?_eq_none (by simpa using Nat.le_of_not_lt hi)] at h
    cases h

theorem stationsDistinct_filled (st : StState) : StationsDistinct (filled st) := by
  refine ⟨by simp [filled, State.onSu, Config.stationCount], ?_⟩
  intro i j a b hi hj hk
  have hi := filled_get hi
  have hj := filled_get hj
  rw [hi.2, hj.2] at hk
  have := congrArg BitVec.toNat hk
  simp only [BitVec.toNat_ofNat] at this
  omega

theorem test_meets_RadioEventsMoveEntries :
    StationsDistinct s0 ∧
    (∀ st ∈ [StState.serving .fp1 al, .arriving (some .fp1) 0, .arriving none 86400, .detached al, .away none none,
        .away (some 2) (some (3, 9))],
      (withEntry (entry st) s0).su.table[0]? = some (some (entry st)) ∧ (withEntry (entry st) s0).hu.slots[0]?.isSome = true ∧
        ∀ y ∈ (withEntry (entry st) s0).hu.slots, y.ctx = none) ∧
    (∀ st, StationsDistinct (withEntry (entry st) s0)) ∧ s0.entry 5 = none ∧ s0.su.table[0]? = some none ∧
    (∀ st ∈ [StState.detached al, .away (some 2) none], let s := both st (forwarding 1)
      s.departOf 5 = some (0, ctx (forwarding 1)) ∧ s.hu.slots[0]? = some { gen := 1, ctx := some (ctx (forwarding 1)) } ∧
        (s.hu.slots[1]?.map (·.ctx)) = some none ∧ st.served = false) ∧
    (∀ st ∈ [StState.serving .fp1 al, .detached al, .away none none], let s := filled st
      s.entry 5 = none ∧ (∀ o ∈ s.su.table, o.isSome = true) ∧ (∀ y ∈ s.hu.slots, y.ctx = none)) := by
  refine ⟨stationsDistinct_s0, by decide +kernel, fun st => stationsDistinct_one _ _ rfl, by decide +kernel,
    by decide +kernel, by decide +kernel, by decide +kernel⟩

/-- In a table full of DETACHED or of AWAY entries of one age the first is the one evicted; of SERVING ones none is. -/
theorem test_meets_station_evictions :
    let left (st : StState) (k : Nat) (f : Station) : Prop :=
      (filled st).su.table[k]? = some (some f) ∧ ∃ al, f.st = .detached al
    let gone (st : StState) (k : Nat) (f : Station) : Prop :=
      (filled st).su.table[k]? = some (some f) ∧ ∃ n p, f.st = .away n p
    (∀ st, StationsDistinct (filled st)) ∧
    (left (.detached al) 0 { entry (.detached al) with addr := 1000 } ∧ ∀ k f, left (.detached al) k f → f.since = 0 ∧ 0 ≤ k) ∧
    (gone (.away none none) 0 { entry (.away none none) with addr := 1000 } ∧ (∀ k f, ¬ left (.away none none) k f) ∧
      ∀ k f, gone (.away none none) k f → f.since = 0 ∧ 0 ≤ k) ∧
    ∀ k f, ¬ left (.serving .fp1 al) k f ∧ ¬ gone (.serving .fp1 al) k f := by
  refine ⟨stationsDistinct_filled, ⟨⟨rfl, _, rfl⟩, ?_⟩, ⟨⟨rfl, _, _, rfl⟩, ?_, ?_⟩, ?_⟩
  · intro k f h
    rw [(filled_get h.1).2]
    exact ⟨rfl, Nat.zero_le k⟩
  · rintro k f ⟨h, a, ha⟩
    rw [(filled_get h).2] at ha
    cases ha
  · intro k f h
    rw [(filled_get h.1).2]
    exact ⟨rfl, Nat.zero_le k⟩
  · refine fun k f => ⟨?_, ?_⟩
    · rintro ⟨h, a, ha⟩
      rw [(filled_get h).2] at ha
      cases ha
    · rintro ⟨h, n, p, hp⟩
      rw [(filled_get h).2] at hp
      cases hp

/-- The contexts of a state with every other slot taken for station 7. -/
def noSlot (s : State) : State :=
  s.onHu fun h => { h with slots := h.slots.map fun x =>
    { x with ctx := some (x.ctx.getD { station := 7, peer := 2, st := forwarding 1 }) } }

theorem test_meets_HandoffsWithoutRoomOrWithAContextLeft :
    (let s := noSlot (withEntry (entry (.away none none)) s0)
     StationsDistinct s ∧ s.su.table[0]? = some (some (entry (.away none none))) ∧ (entry (.away none none)).st.served = false ∧
      (∀ y ∈ s.hu.slots, y.ctx ≠ none) ∧ s.departOf 5 = none ∧ s.io.cu.reg = none) ∧
    (∀ c ∈ [forwarding 0, forwarding 1, flushing, waits], let s := noSlot (both (.detached al) c)
      (∀ y ∈ s.hu.slots, y.ctx ≠ none) ∧ s.departOf 5 = some (0, ctx c) ∧
        s.hu.slots[0]? = some { gen := 1, ctx := some (ctx c) } ∧ 2 ≤ s.io.fp.freeCells ∧ (s.io.port .fp3).mgmt.length < 15 ∧
        (ctx c).hints.length ≤ 8) ∧
    (let s := noSlot served
     StationsDistinct s ∧ 1 ≤ s.io.fp.freeCells ∧ claim3.claimant ≠ s.io.fp.nodeId ∧ (∀ y ∈ s.hu.slots, y.ctx ≠ none) ∧
      s.departOf 5 = none ∧ (entry (.serving .fp1 al)).addr = claim3.station) ∧
    (∀ c ∈ [forwarding 1, flushing, waits], let s := both (.serving .fp1 al) c
      s.departOf 5 = some (0, ctx c) ∧ s.arriveOf 5 = none ∧
        (s.hu.slots.set 0 { gen := 1, ctx := none })[0]? = some { gen := 1, ctx := none } ∧ (s.io.port .fp3).mgmt.length < 16) ∧
    (let c := ctx (.arrive waiting)
     let s := (both (.arriving (some .fp1) 0) (forwarding 1)).onHu fun h =>
       { h with slots := h.slots.set 1 { gen := 0, ctx := some c } }
     s.departOf 5 = some (0, ctx (forwarding 1)) ∧ s.arriveOf 5 = some (1, c) ∧
      s.hu.slots[1]? = some { gen := 0, ctx := some c } ∧ c.st = .arrive waiting ∧ 0 + 1 ≤ 65535) :=
  ⟨⟨stationsDistinct_one _ _ rfl, by decide +kernel⟩, by decide +kernel, ⟨stationsDistinct_one _ _ rfl, by decide +kernel⟩,
    by decide +kernel, by decide +kernel⟩

/-- The reset state with a valid calendar whose present minute is `m`, the last observed minute `o`. -/
def atMinute (o : Option Nat) (m : Nat) : State :=
  let s := s0.onTb fun t => { t with cal := { anchor := 0, weekSec := 60 * m, valid := true } }
  { s with se := { s.se with minute := o } }

theorem test_meets_MinuteEventsChargeAndRefill :
    s0.tb.cal.valid = false ∧
    (let s := atMinute (some 7) 7
     s.tb.cal.valid = true ∧ s.se.minute = some (s.tb.cal.minuteOf s.se.ts)) ∧
    (let s := atMinute (some 10079) 0
     s.se.minute ≠ some (s.tb.cal.minuteOf s.se.ts) ∧ s.tb.cal.minuteOf s.se.ts = 0 ∧ s.se.pending = none) ∧
    (let s := withEntry { entry (.serving .fp1 al) with eff := some .metered, activity := 4096 } (atMinute (some 7) 8)
     s.tb.cal.minuteOf s.se.ts = 7 + 1 ∧ s.se.threshold ≤ 4096 ∧ s.se.pending = none) ∧
    (let s := atMinute (some 7) 2880
     s.tb.cal.minuteOf s.se.ts = 2880 ∧ (2880 + 10080 - 7) % 10080 < 5040 ∧ 7 / 1440 ≠ 2880 / 1440) ∧
    ((atMinute none 0).se.minute = none ∧ (atMinute none 0).tb.cal.minuteOf 0 = 0) ∧
    (∀ m ∈ [SchedMethod.nextMinute, .nextDay], { s0.se with pending := some m }.pending = some m) ∧
    (∀ st, StationsDistinct (withEntry (entry st) (atMinute none 0))) ∧
    (let e := entry (.detached al)
     let s := withEntry e (atMinute (some 10079) 0)
     s.su.table[0]? = some (some e) ∧ s.hu.holds e.addr = false ∧ (withCtx (forwarding 1) s).hu.holds e.addr = true ∧
      s.su.table[1]? = some none) ∧
    (let s := withCtx waits (atMinute none 0)
     s.hu.slots[0]? = some { gen := 1, ctx := some (ctx waits) } ∧ waits = .await waiting 2 60 0 0 65534) ∧
    (let v : Override := { scope := .untilEdge, base := .block }
     let o : Overrides := { pause := some v }
     let s := atMinute (some 7) 8
     let s := { s with se := { s.se with overrides := s.se.overrides.set 30 o } }
     s.se.overrides[31 - 1]? = some o ∧ s.se.overrides[1 - 1]? = some ⟨none, none⟩ ∧ s.se.base 31 (some 8) ≠ v.base ∧
      (after .minuteEvent s).se.overrides[30]? = some ⟨none, none⟩) := by
  refine ⟨by decide +kernel, by decide +kernel, by decide +kernel, by decide +kernel, by decide +kernel, by decide +kernel,
    by decide +kernel, fun st => stationsDistinct_one _ _ rfl, by decide +kernel, by decide +kernel, by decide +kernel⟩

theorem test_meets_HandoffTimesMoveEntriesAndContexts :
    let fwd (o : Nat) : CtxState := .depart false 0 0 0 o (some al)
    (StationsDistinct s0 ∧ s0.su.table[192]?.join = none ∧ s0.su.table[0]?.join = none) ∧
    (let e := entry (.away none (some (3, 0)))
     (withEntry e s0).su.table[0]? = some (some e) ∧ 0 ≤ (s0.mt - 0).toInt ∧ ¬ 0 ≤ (s0.mt - 1).toInt) ∧
    s0.hu.ctxAt 16 = none ∧
    (∀ st ∈ [fwd 0, fwd 1, .arrive waiting, .await waiting 2 60 0 0 0, .await { waiting with taken := some ⟨0, al⟩ } 0 60 0 0 0],
      (withCtx st s0).hu.slots[0]? = some { gen := 1, ctx := some (ctx st) } ∧ (ctx st).hints.length ≤ 8 ∧ (ctx st).peer ≠ 0) ∧
    (0 ≤ (s0.mt - (0 + BitVec.ofNat 48 (0 * 2 ^ s0.tb.params.exponent))).toInt ∧
      ¬ 0 ≤ (s0.mt - (0 + BitVec.ofNat 48 (1 * 2 ^ s0.tb.params.exponent))).toInt) ∧
    (1 ≤ s0.io.fp.freeCells ∧ (s0.io.port .fp3).mgmt.length < 16 ∧ s0.io.cu.reg = none) ∧
    (let c := ctx (.arrive waiting)
     let s := (both (.arriving (some .fp1) 0) (forwarding 1)).onHu fun h =>
       { h with slots := h.slots.set 1 { gen := 0, ctx := some c } }
     s.departOf c.station = some (0, ctx (forwarding 1)) ∧ s.hu.slots[1]? = some { gen := 0, ctx := some c } ∧
      s.hu.slots[0]? = some { gen := 1, ctx := some (ctx (forwarding 1)) }) ∧
    (0 ≤ (s0.tb.lt - waiting.deadline).toInt ∧ ¬ 0 ≤ (s0.tb.lt - { waiting with deadline := 1 }.deadline).toInt) ∧
    (let s := withCtx (.arrive waiting) (withEntry (entry (.arriving none 0)) s0)
     StationsDistinct s ∧ s.su.table[0]? = some (some (entry (.arriving none 0))) ∧
      (entry (.arriving none 0)).addr = (ctx (.arrive waiting)).station) :=
  ⟨⟨stationsDistinct_s0, by decide +kernel⟩, by decide +kernel, by decide +kernel, by decide +kernel, by decide +kernel,
    by decide +kernel, by decide +kernel, by decide +kernel, stationsDistinct_one _ _ rfl, by decide +kernel⟩

/-- The staging slot of the reset state in a state, with a flash operation in flight. -/
def flying (o : FlashOp) (st : SlotState) : State := (staged st).onIe fun e => { e with inFlight := some o }

theorem test_meets_FlashOperationsAndTheSwitch :
    (s0.ie.inFlight = none ∧ s0.ie.pendingOp = none ∧ s0.ie.writeQ = [] ∧ s0.ie.dist = none) ∧
    ((flying (.erase true 1) .erasing).ie.inFlight = some (.erase true 1) ∧
      ((flying (.erase true 1) .erasing).ie.slot true).held = some (held .erasing) ∧
      ((flying (.erase true 1) .receiving).ie.slot true).held = some (held .receiving)) ∧
    ((flying (.write true 1 1) .receiving).ie.inFlight = some (.write true 1 1) ∧
      ((flying (.write true 1 1) .receiving).ie.slot true).load = 1 ∧ (held .receiving).map[1]? = some false ∧
      (held .receiving).failures < 2 ∧ { held .receiving with failures := 2 }.failures = 2) ∧
    ((flying (.verify true 1) (.verifying .controller)).ie.inFlight = some (.verify true 1) ∧
      ((flying (.verify true 1) (.verifying .controller)).ie.slot true).held = some (held (.verifying .controller)) ∧
      crc32 [] = img.crc ∧ crc32 [1] ≠ img.crc ∧ true = !(flying (.verify true 1) .verified).ie.active) ∧
    ((flying (.blockRead true 1 0 5 true) .verified).ie.inFlight = some (.blockRead true 1 0 5 true) ∧
      (distributing (dist .stream)).ie.dist = some (dist .stream) ∧ (dist .stream).streamPos < (dist .stream).img.count ∧
      s0.io.blockFrames < 4 ∧ 5 ≤ s0.io.fp.freeCells ∧
      queueCells (s0.io.port .fp3).queue.c3 + 5 ≤ (s0.io.port .fp3).limit.c3) ∧
    (((staged (.armed 0)).ie.slot (!(staged (.armed 0)).ie.active)).held = some (held (.armed 0)) ∧
      0 ≤ (s0.mt - 0).toInt ∧ ¬ 0 ≤ (s0.mt - 1).toInt) := by decide +kernel

/-! ### Lists of targets, flows and entries: what stands before the first, and in a list without one -/

/-- What holds of every element of a list holds at every position from any start on. -/
theorem at_every_position {α : Type} {l : List α} {p : α → Prop} (h : ∀ y ∈ l, p y) (start : Nat) :
    ∀ k y, start ≤ k → l[k]? = some y → p y := fun _ _ _ hy => h _ (List.mem_of_getElem? hy)

/-- What holds of every element of a list's front holds at every position of that front. -/
theorem at_every_position_before {α : Type} {l : List α} {p : α → Prop} {j : Nat} (h : ∀ y ∈ l.take j, p y) :
    ∀ k y, k < j → l[k]? = some y → p y := by
  intro k y hk hy
  exact h y (List.mem_of_getElem? (i := k) (by rw [List.getElem?_take_of_lt hk]; exact hy))

/-! ### Schedule states -/

/-- The reset state with a profile 31 that is metered by default, its overrides, and the minute held. -/
def scheduled (o : Overrides) (m : Option Nat) : ScheduleEngine :=
  { s0.se with
    active := { s0.se.active with profiles := s0.se.active.profiles.set 30 { default := .metered, exhausted := .block } }
    overrides := s0.se.overrides.set 30 o, minute := m }

/-- A window table with one window of profile 31, all week, at an index. -/
def oneWindow (i : Nat) (k : SchedKind) : List SchedWindow :=
  s0.se.active.windows.set i { inUse := true, profile := 31, start := 0, stop := 10080, kind := k }

/-- The reset state under a valid calendar with a MAINTENANCE window in use or not. -/
def maintained (start stop : Nat) (used : Bool) : State :=
  let s := s0.onTb fun t => { t with cal := { valid := true } }
  { s with se := { s.se with active := { s.se.active with
    windows := s.se.active.windows.set 255 { inUse := used, start, stop, kind := .maintenance } } } }

theorem test_meets_ScheduleStatesAreComputed :
    (((0 : Time) - ({ anchor := 5 } : Calendar).anchor).toInt < 0 ∧ 0 ≤ ((5 : Time) - ({ anchor := 5 } : Calendar).anchor).toInt) ∧
    (let ms := s0.se.active.members.set 127 { inUse := true, addr := 5, profile := 31 }
     (∀ m ∈ s0.se.active.members, ¬ (m.inUse = true ∧ m.addr = 5)) ∧
      ms[127]? = some { inUse := true, addr := 5, profile := 31 } ∧ ∀ m ∈ ms.take 127, ¬ (m.inUse = true ∧ m.addr = 5)) ∧
    (s0.se.active.profiles[31 - 1]?.isSome = true ∧ s0.se.active.profiles[1 - 1]?.isSome = true) ∧
    (∀ w ∈ s0.se.active.windows, w.inUse = false) ∧
    (∀ i ∈ [0, 255], (oneWindow i (.base .block))[i]? =
        some { inUse := true, profile := 31, start := 0, stop := 10080, kind := .base .block } ∧
      ∀ w ∈ (oneWindow i (.base .block)).take i, w.inUse = false) ∧
    (let p : Override := { scope := .untilEdge, base := .allow }
     ∀ o ∈ [({} : Overrides), { pause := some p }, { grant := some p }], (scheduled o none).overrides[31 - 1]? = some o) ∧
    ((scheduled {} none).base 31 none = .metered ∧ (scheduled {} (some 7)).base 31 (some 7) = .metered ∧
      (scheduled {} (some 7)).minute ≠ none ∧ s0.se.base 31 none ≠ .metered) ∧
    (let m := ({} : Profile).matrix
     m.get 0 = .demote 2 ∧ m.get 3 = .pass ∧ ({ m with c1 := .drop } : PerClass Action).get 1 = .drop) ∧
    ((entry (.detached al)).eff = none ∧ { entry (.serving .fp1 al) with eff := some .limit }.eff = some .limit) ∧
    (let w (s : State) : Option SchedWindow := s.se.active.windows[255]?
     s0.tb.cal.valid = false ∧ (∀ x ∈ (maintained 0 1 false).se.active.windows, x.inUse = false) ∧
      (maintained 0 1 true).tb.cal.valid = true ∧ (maintained 0 1 true).tb.cal.minuteOf 0 = 0 ∧
      w (maintained 0 1 true) = some { inUse := true, start := 0, stop := 1, kind := .maintenance } ∧
      (∀ x ∈ (maintained 1 10080 true).se.active.windows, x.inUse = true → ¬ (x.start ≤ 0 ∧ 0 < x.stop)) ∧
      ∃ x ∈ (maintained 1 10080 true).se.active.windows, x.inUse = true ∧ x.kind = .maintenance) := by decide +kernel

/-- The effective state of an exhausted station of a metered profile, and of one with time left (R137, R138). -/
theorem test_effective_states :
    let e := scheduled {} (some 7)
    e.effective 31 (.serving .fp1 { al with remaining := 0 }) = some .block ∧ e.effective 31 (.serving .fp1 al) = some .metered ∧
      (scheduled {} none).effective 31 (.serving .fp1 al) = some .allow ∧ e.effective 31 (.detached al) = none := by
  decide +kernel

/-! ### Hints -/

/-- The flow of `hint` at station 5. -/
def hinted : Flow :=
  { flow with key := { station := 5, proto := hint.proto, rPort := hint.rPort, lPort := hint.lPort, rAddr := hint.rAddr } }

/-- That flow in effective class 0 with the greatest score, and a flow with another local port. -/
def played : Flow := { hinted with effClass := 0, q := 7 }

def otherFlow : Flow := { flow with key := { flow.key with lPort := 77 } }

theorem crowded_all {f : Flow} {p : Flow → Prop} (h : ∀ i, p { f with key := { f.key with rPort := i } }) :
    ∀ g, some g ∈ (crowded f).cl.flows → p g := by
  intro g hg
  obtain ⟨i, hi⟩ := List.getElem?_of_mem hg
  rw [crowded_get hi]
  exact h i

theorem test_meets_HintsAreFormedAndTaken :
    (∀ f, some f ∈ (withFlow played s0).cl.flows → f.q ≤ 7) ∧
    (∀ f ∈ [hinted, { hinted with pinned := true }, { hinted with detected := true }],
      (withFlow f s0).cl.flows[0]? = some (some f) ∧ f.key = hinted.key) ∧
    ((∃ e, (withEntry (entry (.away none none)) s0).entry 5 = some e ∧ e.st.isAway = true) ∧
      ¬ ∃ e, served.entry 5 = some e ∧ e.st.isAway = true) ∧
    ((∀ f, some f ∈ s0.cl.flows → f.key ≠ hinted.key) ∧ s0.cl.flows[0]? = some none) ∧
    ((∀ f, some f ∈ (crowded otherFlow).cl.flows → f.key ≠ hinted.key) ∧
      ∀ o ∈ (crowded otherFlow).cl.flows, o.isSome = true) := by
  have none_ : ∀ f : Flow, some f ∉ s0.cl.flows := by
    intro f hf
    obtain ⟨i, hi⟩ := List.getElem?_of_mem hf
    exact empty_slots (n := 512) hi
  refine ⟨?_, by decide +kernel, ⟨⟨_, rfl, rfl⟩, ?_⟩, ⟨fun f hf => absurd hf (none_ f), by decide +kernel⟩, ?_, by decide +kernel⟩
  · intro f hf
    obtain ⟨i, hi⟩ := List.getElem?_of_mem hf
    have h0 : i = 0 := one_slot (n := 512) (k := 0) (b := played) hi
    subst h0
    cases hi
    decide
  · rintro ⟨e, he, ha⟩
    have : e = entry (.serving .fp1 al) := by
      have h : served.entry 5 = some (entry (.serving .fp1 al)) := by decide +kernel
      exact (Option.some.inj (h.symm.trans he)).symm
    subst this
    cases ha
  · refine crowded_all fun i h => ?_
    have h77 := congrArg FlowKey.lPort h
    change otherFlow.key.lPort = hinted.key.lPort at h77
    exact absurd h77 (by decide)

/-- Hints of one key inside a RELEASE stay, own ones of that key are skipped (R121; log 55). -/
theorem test_merged_hints :
    let h (n : Nat) : Hint := { proto := .udp, rPort := n, lPort := 2, rAddr := 3 }
    mergeHints [h 1, h 1] [h 1, h 2] = [h 1, h 1, h 2] := by decide +kernel

/-- Two hints with the key of one flow: the first creates it, the second merges (R64). -/
theorem test_hints_create_and_merge :
    let t := takeHints 5 [hint, hint] s0
    t.cl.counters.hintFlows = 1 ∧ t.cl.counters.hintsMerged = 1 ∧
      ((t.cl.flowAt 0).map fun f => (f.key, f.q, f.detected, f.effClass)) = some (hinted.key, 3, true, 0) ∧
      (t.io.cu.events.get .flow).first = some (.gameStarted hinted.key 0 3) := by decide +kernel

/-! ### The phases of a distribution -/

/-- A distribution with two targets in given states. -/
def targeting (p : Phase) (a b : TargetState) : Dist :=
  { dist p with cutover := some 100000000, targets := [{ node := 2, st := a }, { node := 3, st := b, retries := 2 }] }

theorem first_target {p : Phase} {a b : TargetState} {ok : TargetState → Prop} (ha : ¬ ok a) (hb : ok b) :
    0 ≤ 1 ∧ (targeting p a b).targets[1]? = some { node := 3, st := b, retries := 2 } ∧ ok b ∧
      ∀ k y, 0 ≤ k → k < 1 → (targeting p a b).targets[k]? = some y → ¬ ok y.st := by
  refine ⟨by decide, rfl, hb, ?_⟩
  intro k y _ hk hy
  have : k = 0 := by omega
  subst this
  cases hy
  exact ha

theorem no_target {p : Phase} {a b : TargetState} {ok : TargetState → Prop} (ha : ¬ ok a) (hb : ¬ ok b) (start : Nat) :
    ∀ k y, start ≤ k → (targeting p a b).targets[k]? = some y → ¬ ok y.st := by
  refine at_every_position ?_ start
  intro y hy
  simp only [targeting, List.mem_cons, List.not_mem_nil, or_false] at hy
  rcases hy with rfl | rfl
  · exact ha
  · exact hb

/-- The distributions below hold a second target that a phase goes on with, or none: by `first_target` and `no_target`. -/
theorem test_meets_DistributionPhasesEnd_targets :
    (∀ p a b, (distributing (targeting p a b)).ie.dist = some (targeting p a b)) ∧
    (∀ ok ∈ [TargetState.pending, .ready, .missing, .complete, .verified, .accepted], TargetState.refused ≠ ok) ∧
    ((targeting .poll .refused .missing).targets.filter (fun t => t.st = .missing) ≠ [] ∧
      (targeting .poll .refused .ready).targets.filter (fun t => t.st = .missing) = [] ∧
      (targeting .poll .refused .missing).round < s0.ie.params.roundsMax ∧
      s0.ie.params.roundsMax ≤ { targeting .poll .refused .missing with round := 8 }.round) ∧
    (s0.ie.params.maxDeferrals < { targeting .propose .refused .refused with deferrals := 16 }.deferrals + 1 ∧
      s0.ie.params.forceAfter = false ∧ (targeting .propose .refused .refused).deferrals + 1 ≤ s0.ie.params.maxDeferrals) :=
  ⟨fun _ _ _ => rfl, by decide +kernel⟩

/-- A distribution on a state whose staging slot is in a state. -/
def deciding (d : Dist) (st : SlotState) : State :=
  (staged st).onIe fun e => { e with dist := some d }

theorem test_meets_DistributionPhasesEnd_passes :
    ((18 + (imageBytes { query := 1, id := 9, body := .cancel }).length + 255) / 256 ≤ s0.io.fp.freeCells ∧
      (s0.io.port .fp3).mgmt.length < 16 ∧ (free 0).io.fp.freeCells < 1 ∧ 16 ≤ ((full .fp3).io.port .fp3).mgmt.length) ∧
    (let pass (s : State) : Status := quietVerdict
       (BitVec.ofNat 48 ((s.mt.toNat + s.ie.params.lead * 1000000 + 2 ^ 19 - 1) / 2 ^ 19 * 2 ^ 19)) s.tb
     2 ^ (root.tb.params.exponent + 6) = 2 ^ 19 ∧ root.tb.sync = .root ∧ pass root = .ok ∧
      pass (root.onTb fun t => { t with quietList := [8192, 16384, 24576, 32768] }) = .tableFull) ∧
    ((follower .track).tb.followed = some ⟨2, 1⟩ ∧ s0.tb.sync = .free ∧ s0.tb.followed = none ∧
      (s0.onTb fun t => { t with sync := .locked }).tb.sync ≠ .root) ∧
    (let c : Time := 100000000
     let d := targeting .propose .refused .refused
     let cutoff (lead : Nat) : Time := c - BitVec.ofNat 48 (lead * 1000000 / 2)
     d.cutover = some c ∧ ¬ 0 ≤ (s0.mt - cutoff s0.ie.params.lead).toInt ∧
      0 ≤ ((s0.onTb fun t => { t with lt := 98000000 }).mt - cutoff s0.ie.params.lead).toInt ∧
      0 ≤ ((s0.onTb fun t => { t with lt := 100000000 }).mt - c).toInt ∧
      (∀ st ∈ [SlotState.verified, .armed 7], let s := deciding d st
        (s.ie.slot (!s.ie.active)).held = some (held st) ∧ (held st).img.id = d.img.id ∧ ¬ 0 ≤ (s.mt - c).toInt ∧
          s.cl.flows = List.replicate 512 none ∧ s.tb.cal.valid = false) ∧
      (let s := deciding d .receiving
       (s.ie.slot (!s.ie.active)).held = some (held .receiving) ∧ (held .receiving).st ≠ .verified) ∧
      d.forced = false ∧ { d with forced := true }.forced = true) ∧
    (let f : Flow := { flow with effClass := 0, cur := true }
     let s := withFlow f (withEntry (entry (.serving .fp1 al)) (deciding (targeting .propose .refused .refused) .verified))
     some (entry (.serving .fp1 al)) ∈ s.su.table ∧ some f ∈ s.cl.flows ∧ f.key.station = (entry (.serving .fp1 al)).addr) ∧
    (let s : State := { deciding (targeting .propose .refused .refused) .verified with
       tb := (maintained 9 10080 true).tb, se := (maintained 9 10080 true).se }
     s.tb.cal.valid = true ∧ s.tb.cal.minuteOf 100000000 = 1 ∧
      (∃ w ∈ s.se.active.windows, w.inUse = true ∧ w.kind = .maintenance) ∧
      ∀ w ∈ s.se.active.windows, w.inUse = true → ¬ (w.start ≤ 1 ∧ 1 < w.stop)) := by decide +kernel

/-- A pass whose last target is judged, this node's slot being ready, is armed; without a slot it is deferred, which after the
last deferral ends the distribution (R168, R169). -/
theorem test_ends_of_a_pass :
    let d := targeting .propose .refused .refused
    ((proposeNext (deciding d .verified)).ie.dist.map (·.phase) = some .armed ∧
      ((proposeNext (deciding d .verified)).ie.slot true).held.map (·.st) = some (.armed 100000000)) ∧
    (proposeNext (distributing { d with deferrals := 15 })).ie.dist.map (·.stage) = some (.waiting 900000000) ∧
    (proposeNext (distributing { d with deferrals := 16 })).ie.dist.map (·.phase) = some .aborted := by decide +kernel

/-! ### What the widened statements cover beside the tests above -/

/-- The reset state with a STATION and a HANDOFF event, both reported, neither enabled, at a registered controller's node. -/
def twoReported (n : Nat) (s : State) : State :=
  registered n (s.onIo fun io => raise (.contextLost 5 2) (raise (.noEntry 5 .fp1) io))

theorem test_meets_EventAndAdmissionRequests_notices :
    (let comes (c : Category) : Prop := (511 : Nat).testBit (categoryCode c - 1) = true ∧
       ((twoReported 1 s0).io.cu.events.get c).enable = false ∧ ((twoReported 1 s0).io.cu.events.get c).pending = true
     (∀ c, c ∈ [Category.station, .handoff] ↔ comes c) ∧
      [Category.station, .handoff].Pairwise fun c d => categoryCode c < categoryCode d) ∧
    s0.io.cu.reg = none ∧
    (∀ n ∈ [1, 2], ((twoReported n s0).io.cu.events.get .handoff).first = some (.contextLost 5 2) ∧
      (twoReported n s0).io.cu.reg = some ⟨n, .fp0, 9⟩ ∧ 1 ≤ (twoReported n s0).io.fp.freeCells ∧
      ((twoReported n s0).io.port .fp0).mgmt.length < 16 ∧ ((twoReported n s0).io.port .fp3).mgmt.length < 16 ∧
      (twoReported n (free 0)).io.fp.freeCells < 1 ∧ 16 ≤ ((twoReported n (full .fp0)).io.port .fp0).mgmt.length ∧
      16 ≤ ((twoReported n (full .fp3)).io.port .fp3).mgmt.length) ∧
    (be 1 1 ++ be 1 3 ++ be 2 1 ++ be 1 2 ++ be 1 7 ++ eventDetail (.contextLost 5 2)).length ≤ 238 := by
  refine ⟨⟨?_, by decide⟩, by decide +kernel⟩
  intro c
  cases c <;> decide +kernel

theorem test_meets_BlocksEnterTheWriteQueue_pool :
    let s := (staged .receiving).onIo (Io.onFp fun f => { f with freeCells := 3 })
    (s.ie.slot (!s.ie.active)).held = some (held .receiving) ∧ 1 < (held .receiving).img.count ∧
      (held .receiving).map[1]? ≠ some true ∧ s.ie.writeQ = [] ∧ s.io.fp.freeCells < 4 ∧ s.io.fp.freeCells < 5 := by
  decide +kernel

theorem test_meets_DistributionsStartAndAbort_no_targets :
    let s := staged .verified
    ¬ (7 < ([] : List Nat).length ∨ (∃ n ∈ ([] : List Nat), n = 0 ∨ 8 < n ∨ n = s.io.fp.nodeId) ∨ ¬ ([] : List Nat).Nodup) ∧
      s.ie.dist = none ∧ (s.ie.slot (!s.ie.active)).held = some (held .verified) ∧ (held .verified).img.id = 9 := by
  decide +kernel

/-- A root one cycle on with quiet cycles listed, and a RELEASE that waits for its cell. -/
def owing (c : CtxState) (times : List Time) : State :=
  withCtx c (later 1 root |>.onTb fun t => { t with quietList := times })

theorem test_meets_CycleStartsMoveTheBlock_quiet_and_releases :
    let start : Time := 8192
    let s := owing (.depart true 0 2 7 0 (some al)) [start, 16384, 24576]
    (s.tb.count ≠ s.tb.lastCount ∧ s.tb.preset = none ∧ s.tb.sync = .root ∧ s.tb.count ≠ 0 ∧
      start = BitVec.ofNat 48 (s.mt.toNat / 2 ^ s.tb.params.exponent * 2 ^ s.tb.params.exponent)) ∧
    (16384 ∈ s.tb.quietList ∧ (16384 : Time) = start + BitVec.ofNat 48 (2 ^ s.tb.params.exponent) ∧
      (16384 : Time) ∉ (owing (forwarding 1) []).tb.quietList) ∧
    ((s.onIo (Io.onFp fun f => { f with freeCells := 0 })).io.fp.freeCells = 0 ∧ (later 1 (follower .listen)).tb.sync ≠ .root) ∧
    (s.hu.slots[0]? = some { gen := 1, ctx := some (ctx (.depart true 0 2 7 0 (some al))) } ∧
      (∀ y ∈ s.hu.slots.drop 1, y.ctx = none) ∧ s.io.cu.reg = none ∧ 1 + 1 ≤ s.io.fp.freeCells ∧
      (ctx (.depart true 0 2 7 0 (some al))).hints.length ≤ 8 ∧ s.hu.counters.releasesSent ≤ 4294967295) ∧
    (16 - ((full .fp3).io.port .fp3).mgmt.length = 0 ∧ 16 - (s.io.port .fp3).mgmt.length = 16) ∧
    (∀ x ∈ (later 1 root).hu.slots, x.ctx = none) := by decide +kernel

/-- The RELEASE retried at a cycle start stands in the queue, its context gone, and with no room it waits on (R118). -/
theorem test_releases_are_retried :
    let s := owing (.depart true 0 2 7 0 (some al)) []
    let t := after .cycleStart s
    let u := after .cycleStart { s with io := s.io.onPort .fp3 fun e => { e with mgmt := List.replicate 16 frame } }
    (t.io.port .fp3).mgmt = [releaseFrame s 5 2 7 al []] ∧ t.hu.ctxAt 0 = none ∧ t.hu.counters.releasesSent = 1 ∧
      u.hu = s.hu := by decide +kernel

/-- A port of frames that go one after the other at a short window, their marks in slot 0. -/
def dropping (c : CtxState) (mgmt : List QFrame) (c3 : List QFrame) : State :=
  let s := withCtx c ((queued .fp3 mgmt ⟨[], [], [], c3⟩ s0).onTb fun t => { t with lt := 512 })
  s.onIo (Io.onEs fun e => { e with active := e.active.set 1 shortWindow })

theorem test_meets_WindowOpeningsDropOversizeHeads_several :
    let marked : QFrame := { long with mark := some ⟨0, 1⟩ }
    (∀ c ∈ [CtxState.depart false 0 2 0 2 none, .await waiting 2 60 0 0 2, .depart true 0 2 0 3 none,
        .depart true 0 2 0 2 (some al), .arrive waiting],
      let s := dropping c [long, frame] [marked, marked, frame]
      s.io.es.seen ≠ some (s.io.es.inEffect s.tb) ∧ s.io.es.inEffect s.tb = .window 1 ∧
        s.io.es.active[1]? = some shortWindow ∧ s.tb.quietNow = false ∧ s.io.cu.reg = none ∧
        s.hu.slots[0]? = some { gen := 1, ctx := some (ctx c) } ∧ (∀ y ∈ s.hu.slots, ∀ d, y.ctx = some d → d.hints.length ≤ 8) ∧
        2 ≤ s.io.fp.freeCells) ∧
    (s0.io.es.airtime 1 frame + s0.io.es.guardTime ≤ shortWindow.length ∧
      shortWindow.length < s0.io.es.airtime 1 long + s0.io.es.guardTime ∧ shortWindow.mask.get 3 = true) ∧
    ([marked, marked].countP (fun f => f.mark = some ⟨0, 1⟩) = 2 ∧ (2 < 3) ∧ 2 ≤ 2 ∧ [frame].length + 2 ≤ 16) ∧
    ((s0.io.cu.events.get .backhaul).pending = false ∧
      ((raise (.oversize .fp3 .mgmt 1 1 1) s0.io).cu.events.get .backhaul).pending = true) ∧
    (∃ h, long.hdr = some h) := by
  refine ⟨?_, by decide +kernel, by decide +kernel, by decide +kernel, _, rfl⟩
  intro c hc
  have hints : ∀ y ∈ (dropping c [long, frame] [{ long with mark := some ⟨0, 1⟩ }, { long with mark := some ⟨0, 1⟩ }, frame]).hu.slots,
      ∀ d, y.ctx = some d → d.hints.length ≤ 8 := by
    intro y hy d hd
    obtain ⟨i, hi⟩ := List.getElem?_of_mem hy
    have hs : (dropping c [long, frame] [{ long with mark := some ⟨0, 1⟩ }, { long with mark := some ⟨0, 1⟩ }, frame]).hu.slots =
        (List.replicate 16 ({ gen := 0, ctx := none } : CtxSlot)).set 0 { gen := 1, ctx := some (ctx c) } := rfl
    rw [hs] at hi
    by_cases h0 : 0 = i
    · subst h0
      cases hi
      cases hd
      exact Nat.zero_le 8
    · rw [List.getElem?_set_ne h0, List.getElem?_replicate] at hi
      split at hi <;> cases hi
      cases hd
  refine ⟨?_, ?_, ?_, ?_, ?_, rfl, hints, ?_⟩
  all_goals revert c; decide +kernel

/-- Two FWD heads dropped at one window opening: the context that placed them is told twice, and in FLUSHING builds its
RELEASE (R81, R117, R118). -/
theorem test_two_marked_heads_are_dropped :
    let marked : QFrame := { long with mark := some ⟨0, 1⟩ }
    let s := dropping (.depart true 0 2 0 2 (some al)) [frame] [marked, marked, frame]
    let t := after .windowOpening s
    (t.io.port .fp3).queue.c3 = [frame] ∧ (t.io.port .fp3).counters.oversize = 2 ∧ t.hu.ctxAt 0 = none ∧
      (t.io.port .fp3).mgmt = [frame, releaseFrame s 5 2 0 al []] ∧ (t.io.cu.events.get .backhaul).count = 2 := by
  decide +kernel

/-- The Handoff Unit is told of a FWD head before the next head is judged: its RELEASE takes one of the 4 cells its own head
freed, before the 4 of the next head come back (R81, R118). -/
theorem test_a_head_is_told_before_the_next_is_judged :
    let s := dropping (.depart true 0 2 0 1 (some al)) [] [{ long with mark := some ⟨0, 1⟩ }, long]
    let t := after .windowOpening (s.onIo (Io.onFp fun f => { f with freeCells := 0, lowestFree := 9 }))
    t.io.fp.lowestFree = 3 ∧ t.io.fp.freeCells = 7 ∧ (t.io.port .fp3).mgmt = [releaseFrame s 5 2 0 al []] := by decide +kernel

/-- A short window in the staged table, one frame too long for it in the management queue, and the time in that window, in a
quiet cycle or not. -/
def stagedShort (quiet : Bool) : State :=
  let s := (queued .fp3 [long] ⟨[], [], [], []⟩ s0).onTb fun t => { t with lt := 512, quietNow := quiet }
  s.onWindows fun l => l.set 1 shortWindow

theorem test_meets_CommitsAreJudged_now :
    let w (s : State) : List Window := s.io.es.staged
    let found (s : State) : InEffect := ({ s.io.es with active := s.io.es.staged } : Egress).inEffect s.tb
    (∀ q ∈ [true, false], (stagedShort q).io.es.pending = none ∧ found (stagedShort q) = .window 1 ∧
      invalidWindows (stagedShort q).tb.cycle (w (stagedShort q)) = none) ∧
    ((stagedShort true).tb.quietNow = true ∧ (stagedShort false).tb.quietNow = false) ∧
    (let s := (stagedShort false).onWindows fun l => l.set 1 {}
     found s = .gap ∧ invalidWindows s.tb.cycle (w s) = none) := by decide +kernel

/-- COMMIT NOW opens the window now in effect before its response is placed: the head goes, the response stays (R81, R85). -/
theorem test_commit_now_opens_the_window :
    let s := (stagedShort false).onIo (Io.onCu fun c => { c with reg := some ⟨2, .fp3, 7⟩ })
    let t := after (.commitWindowTable { h0 with port := .fp3 } 1) s
    t.io.es.seen = some (.window 1) ∧ (t.io.port .fp3).counters.oversize = 1 ∧ long ∉ (t.io.port .fp3).mgmt ∧
      (t.io.port .fp3).mgmt.length = 1 ∧ after .windowOpening t = t := by decide +kernel

/-- A FWD frame of the context in slot 0 on its way out. -/
def sending (c : CtxState) (s : State) : State :=
  withCtx c { s with io := s.io.onPort .fp3 fun e => { e with tx := .busy { frame with mark := some ⟨0, 1⟩ } } }

theorem test_meets_TransmitDoneEndsAFrame_contexts :
    (∀ c ∈ [CtxState.arrive waiting, waits, .depart true 0 2 65534 2 none, .depart true 0 2 65534 1 (some al), .depart true 0 2 0 0 none],
      (sending c s0).hu.slots[0]? = some { gen := 1, ctx := some (ctx c) } ∧ (ctx c).hints.length ≤ 8) ∧
    (((sending flushing s0).io.port .fp3).tx = .busy { frame with mark := some ⟨0, 1⟩ } ∧ s0.io.cu.reg = none ∧
      1 ≤ s0.io.fp.freeCells + frame.cells ∧ (s0.io.port .fp3).mgmt.length < 16) ∧
    16 ≤ ((sending flushing (full .fp3)).io.port .fp3).mgmt.length ∧ (free 0).io.fp.freeCells + 0 = 0 := by decide +kernel

/-- The last outstanding frame of a FLUSHING context brings its RELEASE, or leaves it waiting (R117, R118). -/
theorem test_last_frame_out_brings_the_release :
    let t := after (.transmitDone .fp3 true) (sending flushing s0)
    let u := after (.transmitDone .fp3 false) (sending flushing (full .fp3))
    (t.io.port .fp3).mgmt = [releaseFrame s0 5 2 1 al []] ∧ t.hu.ctxAt 0 = none ∧ t.hu.counters.fwdSent = 1 ∧
      u.hu.ctxAt 0 = some (ctx (.depart true 0 2 0 0 (some al))) := by decide +kernel

theorem test_meets_DistributorRepliesMoveTargets_last :
    (∀ k ∈ [QueryKind.announce, .map 0, .verify, .propose, .cancel, .quiet 1],
      (asking k (targeting .announce .pending .pending)).ie.dist =
        some { targeting .announce .pending .pending with query := some ⟨4, k, 0⟩ }) ∧
    (let m : MapContent := { status := .receiving, more := true, ranges := [] }
     m.ranges.length ≤ 16 ∧ (m.more = false ∨ m.ranges = [])) ∧
    ({ status := .complete, more := false, ranges := [] } : MapContent).more = false ∧ Status.tableFull ≠ .ok := by decide +kernel

/-- The last reply of a phase: an ANNOUNCE REPLY begins STREAM, a VERIFY REPORT the first pass (R166 to R168). -/
theorem test_last_replies :
    let d : Dist := { targeting .announce .pending .ready with query := some ⟨4, .announce, 0⟩ }
    let v : Dist := { targeting .verify .verifying .failed with query := some ⟨4, .verify, 0⟩ }
    ((after (.announceReply 4 .ready) (distributing d)).ie.dist.map fun x => (x.phase, x.query)) = some (.stream, none) ∧
      (after (.verifyReport 4 true) (distributing v)).ie.dist.map (·.phase) = some .propose := by decide +kernel

theorem test_meets_DistributorTimesMoveThePhase_last :
    let timed (k : QueryKind) (d : Dist) : Dist := { d with query := some ⟨4, k, 0⟩ }
    let x : Target := { node := 2, st := .verified, retries := 3 }
    let d : Dist := { dist .propose with targets := [x], cutover := some 100000000 }
    (∀ k ∈ [QueryKind.announce, .map 0, .verify, .propose, .cancel, .quiet 1],
      (timed k d).targets[(timed k d).cursor]? = some x ∧ 0 ≤ ((distributing (timed k d)).tb.lt - 0).toInt) ∧
    (let p := s0.ie.params
     p.announceRetries ≤ 3 ∧ p.mapRetries ≤ 3 ∧ p.verifyRetries ≤ 3 ∧ p.proposeRetries ≤ 3 ∧ 2 < p.proposeRetries ∧
      d.quietRetries < p.proposeRetries ∧ p.proposeRetries ≤ { d with quietRetries := 3 }.quietRetries) ∧
    (let cutoff : Time := 100000000 - BitVec.ofNat 48 (s0.ie.params.lead * 1000000 / 2)
     ¬ 0 ≤ (s0.mt - cutoff).toInt ∧ 0 ≤ (cutoff - cutoff).toInt) ∧
    (s0.io.blockFrames = 0 ∧ (dist .stream).img.count ≤ { dist .stream with streamPos := 2 }.streamPos ∧
      true ∉ (dist .resend).resend) := by decide +kernel

/-- A query given up loses its target, which keeps its retries used, and a quiet request given up lets the pass go on
(R165, R168). -/
theorem test_queries_given_up :
    let x : Target := { node := 2, st := .verified, retries := 3 }
    let d : Dist := { dist .propose with targets := [x], cutover := some 100000000, query := some ⟨4, .propose, 0⟩ }
    let q : Dist := { d with query := some ⟨4, .quiet 1, 0⟩, quietRetries := 3 }
    let t := after .queryTimeout (distributing d)
    (t.ie.dist.map fun x => x.targets.map fun y => (y.st, y.retries)) = some [(.unreachable, 3)] ∧ t.ie.dist.map (·.stage) = some (.waiting 900000000) ∧
      ((after .queryTimeout (distributing q)).ie.dist.bind (·.query)).map (·.kind) = some .propose := by decide +kernel

theorem test_meets_FlashOperationsAndTheSwitch_reads :
    (let d : Dist := { dist .resend with resend := [false, true] }
     (distributing d).ie.dist = some d ∧ d.phase = .resend ∧ d.resend[1]? = some true ∧
      (∀ b ∈ d.resend.take 1, b = false) ∧ true ∉ (dist .resend).resend) ∧
    ((free 4).io.blockFrames < 4 ∧ (free 4).io.fp.freeCells < 5 ∧ s0.io.blockFrames < 4) ∧
    (let f : QFrame := { frame with content := .image ⟨0, 9, .block 0 0 []⟩, cls := 3, cells := 380 }
     let s := queued .fp3 [] ⟨[], [], [], [f]⟩ s0
     (s.io.port .fp3).limit.c3 < queueCells (s.io.port .fp3).queue.c3 + 5 ∧ 4 ≤ (queued .fp3 [] ⟨[], [], [], [f, f, f, f]⟩ s0).io.blockFrames) ∧
    (let r : SlotRec := { held .receiving with map := [false, true], received := 1 }
     r.map[1]? = some true) := by decide +kernel

/-- RESEND reads the first block of its set, and passes over one the pool refuses (R167). -/
theorem test_resend_reads :
    let d : Dist := { dist .resend with resend := [false, true] }
    (after .flashOperationStart (distributing d)).ie.inFlight = some (.blockRead true 0 1 5 true) ∧
      ((after .flashOperationStart ((distributing d).onIo (Io.onFp fun f => { f with freeCells := 4 }))).ie.dist.map (·.resend)) =
        some [false, false] := by decide +kernel

/-! ### What the statements widened last cover -/

/-- The settled state with one request, its verdict given, whose table, target or block names nothing. -/
def naming (denied : Bool) (payload : List Byte) : State :=
  settled.onIo (Io.onCu fun c => { c with queue := [{ request payload with denied }] })

theorem test_meets_EmptyQueueStepGoesOn_nothing_named :
    ∀ p ∈ [[1, 0, 7, 0, 4, 15, 0, 0], [1, 0, 7, 0, 5, 14, 0, 0], [1, 0, 7, 0, 6, 0, 0, 0], [1, 0, 7, 0, 7, 3, 1], [1, 0, 7, 0, 8, 0],
        [1, 0, 7, 0, 1, 10]],
      ∀ denied, due (naming denied p) = none ∧ (naming denied p).io.cu.queue = [{ request p with denied }] ∧
        (let code := field p 3 2
         let named := field (p.drop 5) 0 1
         ((code = 1 ∨ code = 2) ∧ (named = 0 ∨ 9 < named)) ∨ (code = 4 ∧ (named = 0 ∨ 14 < named)) ∨
          ((code = 5 ∨ code = 6) ∧ (named = 0 ∨ 13 < named)) ∨ ((code = 7 ∨ code = 8) ∧ (named = 0 ∨ 2 < named))) := by
  decide +kernel

/-- The state one step later. -/
def stepped (s : State) : Option State :=
  match step s with
  | .next t => some t
  | _ => none

/-- A READ ENTRY of a table that does not exist leaves the queue and counts its response (R175, R179). -/
theorem test_a_request_that_names_nothing :
    (stepped (naming false [1, 0, 7, 0, 4, 15, 0, 0])).map (fun t =>
      (t.io.cu.queue, t.io.cu.counters.requestsExecuted, t.io.cu.counters.requestsDenied)) = some ([], 1, 0) ∧
    (stepped (naming true [1, 0, 7, 0, 4, 15, 0, 0])).map (fun t =>
      (t.io.cu.counters.requestsDenied, (t.io.cu.events.get .control).pending)) = some (1, true) := by decide +kernel

theorem test_meets_RestartKeepsAndClears_empty : s0.ie.dist = none ∧ s0.cl.flowAt 511 = none ∧ s0.su.steers = [] := by
  decide +kernel

/-- An entry of profile 31 that holds an effective state. -/
def judgedAs (st : StState) (v : EffState) : Station := { entry st with profile := 31, eff := some v }

theorem test_meets_CommitsAreJudged_rematch :
    let s := withFlow flow (withEntry (judgedAs (.serving .fp1 al) .limit) s0)
    StationsDistinct s ∧ SchedValid s.se.staged ∧ s.se.pending = none ∧ s.cl.flows[0]? = some (some flow) ∧
      flow.rematch = false ∧ some (judgedAs (.serving .fp1 al) .limit) ∈ s.su.table ∧
      (judgedAs (.serving .fp1 al) .limit).profile ≠ s.se.staged.member (judgedAs (.serving .fp1 al) .limit).addr :=
  ⟨stationsDistinct_one _ _ rfl, schedValid_s0, by decide +kernel⟩

/-- A commit NOW that takes a station out of its profile: its flow is to be matched again, its state changes (R132, R137). -/
theorem test_commit_now_marks_flows :
    let t := after (.commitScheduleTables h0 1) (withFlow flow (withEntry (judgedAs (.serving .fp1 al) .limit) s0))
    ((t.cl.flowAt 0).map (·.rematch)) = some true ∧ (t.entry 5).map (fun e => (e.profile, e.eff)) = some (0, some .allow) ∧
      t.se.counters.stateChanges = 1 ∧ (t.io.cu.events.get .schedule).count = 2 := by decide +kernel

theorem test_meets_OverridesAndBonuses_changes :
    let e := judgedAs (.serving .fp1 al) .limit
    let o : Overrides := { pause := some { scope := .latched, base := .allow } }
    let p : Overrides := { grant := some { scope := .latched, base := .allow } }
    StationsDistinct (withEntry e s0) ∧ e.profile = 31 ∧ e.st.served = true ∧ s0.se.overrides[31 - 1]? = some ⟨none, none⟩ ∧
      o ≠ ⟨none, none⟩ ∧ p ≠ ⟨none, none⟩ ∧ (∀ x ∈ [o, p], { s0.se with overrides := s0.se.overrides.set 30 x }.overrides[31 - 1]? = some x) ∧
      al.known = true := ⟨stationsDistinct_one _ _ rfl, by decide +kernel⟩

/-- PAUSE set on a profile changes the state of its station and suppresses its flow (R137, R138, R144). -/
theorem test_pause_changes_the_state :
    let t := after (.setOverride h0 31 1 1) (withFlow flow (withEntry (judgedAs (.serving .fp1 al) .limit) s0))
    (t.entry 5).map (·.eff) = some (some .block) ∧ t.se.counters.stateChanges = 1 ∧
      (t.io.cu.events.get .schedule).count = 2 ∧ ((t.cl.flowAt 0).map fun f => (f.effClass, f.suppressed)) = some (3, true) := by
  decide +kernel

theorem test_meets_DistributionsStartAndAbort_cancels :
    let d := targeting .propose .accepted .accepted
    (distributing d).ie.dist = some d ∧ d.phase ≠ .done ∧ d.phase ≠ .aborted ∧
      (d.targets.filter fun y => y.st = .accepted).map (·.node) = [2, 3] := by decide +kernel

/-- DISTRIBUTE ABORT sends its CANCELs under the next two query numbers (R165, R170). -/
theorem test_abort_cancels_accepted_targets :
    let t := after (.distributeAbort h0) (distributing (targeting .propose .accepted .accepted))
    t.ie.queryNum = 2 ∧ t.ie.counters.queriesSent = 2 ∧
      ((t.io.port .fp3).mgmt.map fun f => (f.content, f.hdr.map (·.dst))) =
        [(.image { query := 1, id := 9, body := .cancel }, some 2), (.image { query := 2, id := 9, body := .cancel }, some 3)] := by
  decide +kernel

theorem test_meets_MinuteEventsChargeAndRefill_changes :
    let v : Override := { scope := .untilEdge, base := .block }
    let e := judgedAs (.serving .fp1 al) .block
    let s := withEntry e (atMinute (some 7) 8)
    let s := { s with se := { s.se with overrides := s.se.overrides.set 30 { pause := some v } } }
    StationsDistinct s ∧ s.tb.cal.valid = true ∧ s.tb.cal.minuteOf s.se.ts = 8 ∧ s.se.minute = some 7 ∧
      s.se.counters.stateChanges = 0 ∧ (after .minuteEvent s).se.counters.stateChanges = 1 ∧
      ((after .minuteEvent s).io.cu.events.get .schedule).first = some (.overrideEnded 31 .pause) :=
  ⟨stationsDistinct_one _ _ rfl, by decide +kernel⟩

/-- The flow of `flowOf`, to be matched again. -/
def stale (a : Addr) : Flow := { flowOf a with rematch := true, detected := true, hint := some 3 }

theorem test_meets_DataFramesAreClassified_rematch :
    (∀ st ∈ [StState.serving .fp1 al, .away none none],
      let s := withFlow (stale 5) (withEntry (entry st) s0)
      s.su.table[0]? = some (some (entry st)) ∧ s.cl.flows[0]? = some (some (stale 5)) ∧ (stale 5).rematch = true ∧
        (stale 5).key = flowKey (entry st).addr linkFrame ∧ (entry st).eff = none) ∧
    (∀ st, StationsDistinct (withFlow (stale 5) (withEntry (entry st) s0))) ∧
    (∀ st, FlowsDistinct (withFlow (stale 5) (withEntry (entry st) s0))) ∧ (entry (.serving .fp1 al)).st.served = true :=
  ⟨by decide +kernel, fun _ => stationsDistinct_one _ _ rfl, fun _ => flowsDistinct_one _ _ rfl, rfl⟩

/-- A frame of a flow to be matched again takes the rule as it stands, and with it another class (R52, R55). -/
theorem test_a_frame_matches_again :
    let rule : ClassRule := { inUse := true, cls := 1, essential := true, pin := true }
    let s := withFlow { stale 5 with key := flowKey 5 linkFrame } served
    let t := after (.dataFrameArrival .fp0 none linkFrame) (s.onCl fun c => { c with rules := c.rules.set 0 rule })
    ((t.cl.flowAt 0).map fun f => (f.ruleClass, f.essential, f.pinned, f.rematch, f.clsClass)) =
      some (1, true, true, false, 1) := by decide +kernel

theorem test_meets_DataFramesAreClassified_away :
    (∀ st ∈ [StState.away none none, .detached al],
      let e : Station := { entry st with addr := 9 }
      let s := withEntry e s0
      s.su.table[0]? = some (some e) ∧ e.addr = linkSrc linkFrame ∧ e.st.served = false) ∧
    (∀ e, StationsDistinct (withEntry e s0)) := ⟨by decide +kernel, fun _ => stationsDistinct_one _ _ rfl⟩

/-- The PAUSE of an AWAY station's member profile drops its frame from FP1 (R137, R139, log 60). -/
theorem test_an_away_station_is_judged_by_its_member_profile :
    let s := withEntry { entry (.away none none) with addr := 9 } s0
    let paused := { s with se := { s.se with overrides := s.se.overrides.set 30 { pause := some { scope := .latched, base := .allow } } } }
    let member := { paused with se := { paused.se with active := { paused.se.active with members := [{ inUse := true, addr := 9, profile := 31 }] } } }
    passes .fp1 none linkFrame member = false ∧ passes .fp1 none linkFrame paused = true := by decide +kernel

/-- A RELEASE taken that leaves one frame to count in. -/
def counting : Waiting := { waiting with taken := some ⟨1, al⟩ }

theorem test_meets_DataFramesAreClassified_dropped_fwd :
    (∀ w ∈ [waiting, counting], ∀ c ∈ [CtxState.arrive w, .await w 2 60 0 0 0, flushing, forwarding 1],
      let st : StState := match c with
        | .arrive _ => .arriving (some .fp1) 0
        | _ => .away (some 3) none
      let s := withFlow { flowOf 5 with suppressed := true, clsClass := 1, hint := some 1 } (both st c)
      passes .fp3 (some (from3 true)) linkFrame s = false ∧ 1 + 64 ≤ s.io.fp.freeCells ∧
        s.hu.slots[0]? = some { gen := 1, ctx := some (ctx c) } ∧
        (s.arriveOf 5 = some (0, ctx c) ∨ (s.arriveOf 5 = none ∧ s.departOf 5 = some (0, ctx c)))) ∧
    (∃ t, counting.taken = some t ∧ t.expected ≤ min (counting.received + 1) 65535) ∧ waiting.taken = none :=
  ⟨by decide +kernel, ⟨_, rfl, by decide⟩, rfl⟩

theorem test_meets_DataFramesAreRouted_last_fwd :
    (∀ q ∈ [some Radio.fp1, none],
      let s := both (.arriving q 0) (.arrive counting)
      s.arriveOf 5 = some (0, ctx (.arrive counting)) ∧ (s.entry 5).map (·.st) = some (.arriving q 0) ∧
        s.hu.slots[0]? = some { gen := 1, ctx := some (ctx (.arrive counting)) } ∧
        passes .fp3 (some (from3 true)) linkFrame s = true) ∧
    (let c : CtxState := .await counting 2 60 0 0 65534
     let s := both (.away (some 3) none) c
     s.arriveOf 5 = none ∧ s.departOf 5 = some (0, ctx c) ∧ s.hu.slots[0]? = some { gen := 1, ctx := some (ctx c) } ∧
      passes .fp3 (some (from3 true)) linkFrame s = true ∧ 65534 < 65535 ∧
      queueCells ((s.io.port .fp3).queue.get 1) + 1 ≤ (s.io.port .fp3).limit.get 1 ∧
      ¬ 0 + 1 ≤ (({ s with io := s.io.onPort .fp3 fun e => { e with limit := e.limit.set 1 0 } } : State).io.port .fp3).limit.get 1) :=
  by decide +kernel

/-- The last FWD frame completes the arrival, or ends the wait for the predecessor (R109, R111, R121). -/
theorem test_the_last_fwd_frame :
    let t := after (.dataFrameArrival .fp3 (some (from3 true)) linkFrame) (both (.arriving (some .fp1) 0) (.arrive counting))
    let u := after (.dataFrameArrival .fp3 (some (from3 true)) linkFrame) (both (.away (some 3) none) (.await counting 2 60 0 0 0))
    t.hu.ctxAt 0 = none ∧ t.hu.counters.arrivalsCompleted = 1 ∧ (t.entry 5).map (·.st) = some (.serving .fp1 al) ∧
      ((t.io.port .fp1).queue.get 2).length = 1 ∧ ((u.io.port .fp3).queue.get 1).length = 1 ∧
      (u.hu.ctxAt 0).map (fun c => ctxStateCode c.st) = some 3 := by decide +kernel

theorem test_meets_StationMessagesMoveEntriesAndContexts_late_and_old :
    (∀ c ∈ [forwarding 1, flushing], (withCtx c s0).hu.slots[0]? = some { gen := 1, ctx := some (ctx c) } ∧
      ∀ y ∈ (withCtx c s0).hu.slots.drop 1, y.ctx = none) ∧
    (let old : Option Hearing := some { node := 2, level := -400, mt := 0 }
     let e : Station := { entry (.serving .fp1 al) with hearings := [old, old, old, old] }
     e.hearings.length = 4 ∧ none ∉ e.hearings ∧ e.st.served = true ∧ (3 : Nat) ≠ s0.io.fp.nodeId ∧
      (∀ m ∈ e.hearings, m.map (·.node) ≠ some 3) ∧
      ((after (.hearingReceived { station := 5, reporter := 3, level := -500 }) (withEntry e s0)).entry 5).map
        (fun x => x.hearings.map fun o => o.map (·.node)) = some [some 3, some 2, some 2, some 2]) := by decide +kernel

/-- A slot of 34 blocks, every other one written: 17 missing ranges. -/
def gaps : SlotRec :=
  { img := { img with count := 34 }, map := (List.range 34).map (· % 2 = 0), received := 17, st := .receiving }

theorem test_meets_TargetMessagesAreAnswered_ranges :
    let s := s0.onIe fun e => e.setSlot true { load := 1, held := some gaps }
    (s.ie.slot (!s.ie.active)).held = some gaps ∧ gaps.img.id = 9 ∧ gaps.st = .receiving ∧
      (mapReportOf { load := 1, held := some gaps } 9 0).more = true ∧
      (mapReportOf { load := 1, held := some gaps } 9 3).more = false ∧
      (mapReportOf { load := 1, held := some gaps } 9 32).ranges = [(33, 1)] := by decide +kernel

end Sys2Proof.Tests
end

section
/-! PROOFS. What a step makes of the Time Base (chapter 1): a lemma for each operation of the other units, which leave it or
write at most its quiet list and its counters; the list of the moves a step can make; the trim band under each move (R2). -/

namespace Sys2Proof.Machine

/-! ## Shared shapes -/

@[simp] theorem ite_tb (p : Prop) [Decidable p] (x y : State) :
    (if p then x else y).tb = if p then x.tb else y.tb := apply_ite State.tb p x y

/-- Steps taken in turn keep the Time Base when each of them does. -/
@[simp] theorem foldl_tb {α : Type} (f : State → α → State) (l : List α) (s : State)
    (h : ∀ x a, (f x a).tb = x.tb) : (l.foldl f s).tb = s.tb := by
  induction l generalizing s with
  | nil => rfl
  | cons a l ih => exact (ih (f s a)).trans (h s a)

@[simp] theorem refuse_state (st : Status) (s : State) : (refuse st s).state = s := rfl
@[simp] theorem ok_state (s : State) : (ok s).state = s := rfl

/-! ## The Schedule Engine's allowances -/

@[simp] theorem formAllowance_tb (profile : Nat) (source : Option Allowance) (charge : Nat) (new : Bool) (s : State) :
    (formAllowance profile source charge new s).2.tb = s.tb := by
  unfold formAllowance
  repeat' split
  all_goals simp

/-! ## The Classifier -/

@[simp] theorem applyFlows_tb (a : Addr) (s : State) : (applyFlows a s).tb = s.tb := rfl
@[simp] theorem flowsEnterAway_tb (a : Addr) (s : State) : (flowsEnterAway a s).tb = s.tb := rfl
@[simp] theorem flowsLeaveAway_tb (a : Addr) (s : State) : (flowsLeaveAway a s).tb = s.tb := rfl
@[simp] theorem flowsRemoved_tb (a : Addr) (s : State) : (flowsRemoved a s).tb = s.tb := rfl
@[simp] theorem modifyEntry_tb (a : Addr) (f : Station → Station) (s : State) : (s.modifyEntry a f).tb = s.tb := rfl
@[simp] theorem addActivity_tb (a : Addr) (n : Nat) (s : State) : (addActivity a n s).tb = s.tb := rfl
@[simp] theorem markRematch_tb (p : Flow → Bool) (s : State) : (markRematch p s).tb = s.tb := rfl
@[simp] theorem setRule_tb (i : Nat) (r : ClassRule) (s : State) : (setRule i r s).tb = s.tb := rfl

theorem roomForFlow_tb {s t : State} {i : Nat} (h : roomForFlow s = some (i, t)) : t.tb = s.tb := by
  unfold roomForFlow at h
  split at h
  · cases h; rfl
  · split at h
    · cases h; rfl
    · cases h

@[simp] theorem throughFlow_tb (i : Nat) (e : Station) (len : Nat) (hint : Option Nat) (f : Flow) (s : State) :
    (throughFlow i e len hint f s).state.tb = s.tb := rfl

@[simp] theorem rulesOnly_tb (r : RuleResult) (held : Option (EffState × Profile)) (s : State) :
    (rulesOnly r held s).state.tb = s.tb := by
  cases held <;> rfl

@[simp] theorem classifyUsable_tb (p : Port) (e : Station) (len : Nat) (hint : Option Nat) (key : FlowKey) (s : State) :
    (classifyUsable p e len hint key s).state.tb = s.tb := by
  unfold classifyUsable
  split
  · split <;> simp
  · split
    · next h => simp [roomForFlow_tb h]
    · simp

@[simp] theorem classifyRules_tb (p : Port) (e : Option Station) (frame : List Byte) (s : State) :
    (classifyRules p e frame s).state.tb = s.tb := by
  unfold classifyRules
  dsimp only
  split
  · cases e <;> simp
  · simp

@[simp] theorem classify_tb (p : Port) (e : Option Station) (hint : Option Nat) (frame : List Byte) (s : State) :
    (classify p e hint frame s).state.tb = s.tb := by
  unfold classify
  split
  · split <;> simp
  · simp

@[simp] theorem scoreFlow_tb (i : Nat) (s : State) : (scoreFlow i s).tb = s.tb := by
  unfold scoreFlow
  split <;> simp

@[simp] theorem classifierPeriod_tb (s : State) : (classifierPeriod s).tb = s.tb := by
  simp [classifierPeriod]

@[simp] theorem takeHint_tb (a : Addr) (s : State) (h : Hint) : (takeHint a s h).tb = s.tb := by
  unfold takeHint
  dsimp only
  split
  · split <;> simp
  · split <;> simp

@[simp] theorem takeHints_tb (a : Addr) (hs : List Hint) (s : State) : (takeHints a hs s).tb = s.tb := by
  simp [takeHints]

@[simp] theorem readRule_state (i : Nat) (s : State) : (readRule i s).state = s := by
  unfold readRule
  split <;> rfl

@[simp] theorem writeRule_tb (i : Nat) (f : ClassRuleFields) (s : State) : (writeRule i f s).state.tb = s.tb := by
  unfold writeRule
  repeat' split
  all_goals simp

@[simp] theorem clearRule_tb (i : Nat) (s : State) : (clearRule i s).state.tb = s.tb := by
  unfold clearRule
  split <;> simp

@[simp] theorem readFlow_state (i : Nat) (s : State) : (readFlow i s).state = s := by
  unfold readFlow
  split <;> rfl

@[simp] theorem clearFlow_tb (i : Nat) (s : State) : (clearFlow i s).state.tb = s.tb := by
  unfold clearFlow
  split <;> rfl

/-! ## The Station Unit -/

@[simp] theorem countSu_tb (f : SuCounters → SuCounters) (s : State) : (s.countSu f).tb = s.tb := rfl
@[simp] theorem countSe_tb (f : SeCounters → SeCounters) (s : State) : (s.countSe f).tb = s.tb := rfl
@[simp] theorem removeEntry_tb (a : Addr) (s : State) : (removeEntry a s).tb = s.tb := rfl
@[simp] theorem putEntry_tb (i : Nat) (a : Addr) (st : StState) (s : State) : (putEntry i a st s).tb = s.tb := rfl
@[simp] theorem noEntry_tb (a : Addr) (r : Radio) (s : State) : (noEntry a r s).tb = s.tb := rfl
@[simp] theorem dropStale_tb (s : State) : (dropStale s).tb = s.tb := rfl

@[simp] theorem computeState_tb (a : Addr) (s : State) : (computeState a s).tb = s.tb := by
  unfold computeState
  split
  · rfl
  · dsimp only
    rw [applyFlows_tb]
    split <;> simp

@[simp] theorem computeStates_tb (p : Station → Bool) (s : State) : (computeStates p s).tb = s.tb := by
  simp [computeStates]

@[simp] theorem changeState_tb (a : Addr) (st : StState) (s : State) : (changeState a st s).tb = s.tb := by
  unfold changeState
  split <;> simp

theorem roomForStation_tb {s t : State} {i : Nat} (h : roomForStation s = some (i, t)) : t.tb = s.tb := by
  unfold roomForStation at h
  split at h
  · cases h; rfl
  · split at h
    · obtain ⟨j, -, he⟩ := Option.map_eq_some_iff.1 h
      cases he; rfl
    · cases h

@[simp] theorem reportSlot_tb (i : Nat) (acc : Nat × Option Nat × State) :
    (reportSlot i acc).2.2.tb = acc.2.2.tb := by
  unfold reportSlot
  dsimp only
  split
  · rfl
  · split
    · rfl
    · split <;> simp

@[simp] theorem sendHearings_tb (s : State) : (sendHearings s).tb = s.tb := by
  have scan (l : List Nat) (acc : Nat × Option Nat × State) :
      (l.foldl (fun acc k => reportSlot ((s.su.scanPos + k) % Config.stationCount) acc) acc).2.2.tb = acc.2.2.tb := by
    induction l generalizing acc with
    | nil => rfl
    | cons k l ih => exact (ih _).trans (reportSlot_tb _ acc)
  have h := scan (List.range Config.stationCount) (0, none, s)
  unfold sendHearings
  generalize List.foldl _ _ _ = r at h ⊢
  dsimp only
  split <;> exact h

@[simp] theorem takeHearing_tb (m : HearingMsg) (s : State) : (takeHearing m s).tb = s.tb := by
  unfold takeHearing
  split <;> simp

@[simp] theorem steerTest_tb (r : Radio) (e : Station) (s0 : Int) (best : Hearing) (active : Bool) (s : State) :
    (steerTest r e s0 best active s).tb = s.tb := by
  simp [steerTest]

@[simp] theorem steerEntry_tb (before s : State) (i : Nat) : (steerEntry before s i).tb = s.tb := by
  unfold steerEntry
  repeat' split
  all_goals simp

@[simp] theorem stationPeriod_tb (before s : State) : (stationPeriod before s).tb = s.tb := by
  simp [stationPeriod]

@[simp] theorem purge_tb (s : State) : (purge s).tb = s.tb :=
  foldl_tb _ _ s fun _ _ => rfl

@[simp] theorem readStationEntry_state (i : Nat) (s : State) : (readStationEntry i s).state = s := by
  unfold readStationEntry
  split <;> rfl

@[simp] theorem clearStationEntry_tb (i : Nat) (s : State) : (clearStationEntry i s).state.tb = s.tb := by
  unfold clearStationEntry
  split
  · split <;> rfl
  · rfl

/-! ## The Handoff Unit -/

@[simp] theorem countHu_tb (f : HuCounters → HuCounters) (s : State) : (s.countHu f).tb = s.tb := rfl
@[simp] theorem modifyCtx_tb (i : Nat) (f : Context → Context) (s : State) : (s.modifyCtx i f).tb = s.tb := rfl
@[simp] theorem freeCtx_tb (i : Nat) (s : State) : (s.freeCtx i).tb = s.tb := rfl
@[simp] theorem placeCtx_tb (i : Nat) (c : Context) (s : State) : (s.placeCtx i c).tb = s.tb := rfl
@[simp] theorem onWaiting_tb (i : Nat) (f : Waiting → Waiting) (s : State) : (s.onWaiting i f).tb = s.tb := rfl
@[simp] theorem countDrop_tb (i : Nat) (s : State) : (s.countDrop i).tb = s.tb := rfl
@[simp] theorem dropHeld_tb (s : State) (f : QFrame) : (dropHeld s f).tb = s.tb := rfl
@[simp] theorem contextLost_tb (a : Addr) (peer : Nat) (s : State) : (contextLost a peer s).tb = s.tb := rfl
@[simp] theorem contextFull_tb (a : Addr) (r : Role) (s : State) : (contextFull a r s).tb = s.tb := rfl
@[simp] theorem switchServer_tb (a : Addr) (s : State) : (switchServer a s).tb = s.tb := rfl
@[simp] theorem newAway_tb (i : Nat) (a : Addr) (st : StState) (s : State) : (newAway i a st s).tb = s.tb := rfl
@[simp] theorem storeRelease_tb (i : Nat) (f : Context → Context) (r : Release) (s : State) :
    (storeRelease i f r s).tb = s.tb := rfl

@[simp] theorem sendClaim_tb (a : Addr) (prev : Nat) (cutover : Time) (s : State) :
    (sendClaim a prev cutover s).tb = s.tb := by
  simp [sendClaim]

@[simp] theorem sendRelease_tb (a : Addr) (peer n : Nat) (sn : Option Allowance) (hints : List Hint) (s : State) :
    (sendRelease a peer n sn hints s).2.tb = s.tb := (toldKept_sendRelease a peer n sn hints s).tb

@[simp] theorem tryRelease_tb (i : Nat) (s : State) : (tryRelease i s).tb = s.tb := (toldKept_tryRelease i s).tb

@[simp] theorem toldFwd_tb (m : Mark) (success : Bool) (s : State) : (toldFwd m success s).tb = s.tb :=
  (toldKept_toldFwd m success s).tb

@[simp] theorem enterFlushing_tb (i : Nat) (s : State) : (enterFlushing i s).tb = s.tb := by
  simp [enterFlushing]

@[simp] theorem forwardFrame_tb (limited : Bool) (i : Nat) (s : State) (f : QFrame) :
    (forwardFrame limited i s f).tb = s.tb := by
  unfold forwardFrame
  split
  · rfl
  · split <;> simp

@[simp] theorem holdFrame_tb (i : Nat) (c : Context) (f : QFrame) (s : State) : (holdFrame i c f s).tb = s.tb := by
  simp [holdFrame]

@[simp] theorem settleEntry_tb (c : Context) (source : Option Allowance) (s : State) :
    (settleEntry c source s).tb = s.tb := by
  unfold settleEntry
  split
  · rfl
  · split <;> simp

@[simp] theorem dropSnapshot_tb (a : Addr) (s : State) : (dropSnapshot a s).tb = s.tb := by
  unfold dropSnapshot
  split <;> rfl

@[simp] theorem placeHeld_tb (i : Nat) (a : Addr) (s : State) (f : QFrame) : (placeHeld i a s f).tb = s.tb := by
  unfold placeHeld
  split <;> rfl

@[simp] theorem raiseOverflow_tb (i : Nat) (s : State) : (raiseOverflow i s).tb = s.tb := by
  unfold raiseOverflow
  split <;> simp

@[simp] theorem completeArrival_tb (i : Nat) (c : Context) (source : Option Allowance) (s : State) :
    (completeArrival i c source s).tb = s.tb := by
  simp [completeArrival]

@[simp] theorem testArrival_tb (i : Nat) (s : State) : (testArrival i s).tb = s.tb := by
  unfold testArrival
  repeat' split
  all_goals simp

@[simp] theorem endArrival_tb (i : Nat) (s : State) : (endArrival i s).tb = s.tb := by
  unfold endArrival
  split
  · split <;> simp
  · rfl

@[simp] theorem formSnapshot_tb (c : Context) (w : Waiting) (predecessor charge : Nat) (s : State) :
    (formSnapshot c w predecessor charge s).2.tb = s.tb := by
  unfold formSnapshot
  split <;> simp

@[simp] theorem endAwait_tb (i : Nat) (c : Context) (w : Waiting) (predecessor charge : Nat) (cutover : Time)
    (forwarded outstanding : Nat) (s : State) :
    (endAwait i c w predecessor charge cutover forwarded outstanding s).tb = s.tb := by
  simp [endAwait]

@[simp] theorem testAwait_tb (i : Nat) (s : State) : (testAwait i s).tb = s.tb := by
  unfold testAwait
  repeat' split
  all_goals simp

@[simp] theorem endPredecessor_tb (i : Nat) (s : State) : (endPredecessor i s).tb = s.tb := by
  unfold endPredecessor
  split
  · split <;> simp
  · rfl

@[simp] theorem countIn_tb (i : Nat) (s : State) : (countIn i s).tb = s.tb := by
  simp [countIn]

@[simp] theorem strayFwd_tb (a : Addr) (sender : Nat) (f : QFrame) (s : State) : (strayFwd a sender f s).tb = s.tb := by
  unfold strayFwd
  split <;> simp

@[simp] theorem takeFwd_tb (a : Addr) (sender : Nat) (f : QFrame) (s : State) : (takeFwd a sender f s).tb = s.tb := by
  unfold takeFwd
  split
  · split <;> simp
  · split
    · split <;> simp
    · simp

@[simp] theorem toldFwdDrop_tb (a : Addr) (s : State) : (toldFwdDrop a s).tb = s.tb := by
  unfold toldFwdDrop
  repeat' split
  all_goals simp

@[simp] theorem takeRelease_tb (r : Release) (s : State) : (takeRelease r s).tb = s.tb := by
  unfold takeRelease
  dsimp only
  repeat' split
  all_goals simp

@[simp] theorem endEarly_tb (i : Nat) (c : Context) (s : State) : (endEarly i c s).tb = s.tb := by
  unfold endEarly
  dsimp only
  rw [countHu_tb, freeCtx_tb, sendRelease_tb, ite_tb]
  cases c.st <;> simp

@[simp] theorem endDepart_tb (a : Addr) (s : State) : (endDepart a s).tb = s.tb := by
  unfold endDepart
  split <;> simp

@[simp] theorem depart_tb (c : Claim) (e : Station) (s : State) : (depart c e s).tb = s.tb := by
  unfold depart
  dsimp only
  split <;> simp

@[simp] theorem convert_tb (c : Claim) (charge : Nat) (s : State) : (convert c charge s).tb = s.tb := by
  unfold convert
  dsimp only
  rw [countHu_tb, changeState_tb]
  split <;> simp

@[simp] theorem takeClaim_tb (c : Claim) (s : State) : (takeClaim c s).tb = s.tb := by
  unfold takeClaim
  dsimp only
  split
  · rfl
  · split
    · split <;> simp
    · split <;> simp

@[simp] theorem resume_tb (a : Addr) (radio : Radio) (allow : Allowance) (s : State) :
    (resume a radio allow s).tb = s.tb := by
  simp [resume]

@[simp] theorem createArrive_tb (i : Nat) (radio : Radio) (e : Station) (s : State) :
    (createArrive i radio e s).tb = s.tb := by
  unfold createArrive
  dsimp only
  rw [sendClaim_tb]
  repeat' split
  all_goals simp

@[simp] theorem arriveWithout_tb (radio : Radio) (e : Station) (s : State) : (arriveWithout radio e s).tb = s.tb := by
  unfold arriveWithout
  dsimp only
  rw [contextFull_tb, sendClaim_tb]
  cases s.departOf e.addr with
  | none => simp
  | some d =>
    dsimp only
    split <;> simp

@[simp] theorem arrive_tb (a : Addr) (radio : Radio) (s : State) : (arrive a radio s).tb = s.tb := by
  unfold arrive
  repeat' split
  all_goals simp

@[simp] theorem endLinger_tb (i : Nat) (s : State) : (endLinger i s).tb = s.tb := by
  unfold endLinger
  repeat' split
  all_goals simp

@[simp] theorem retryReleases_tb (s : State) : (retryReleases s).tb = s.tb := by
  simp [retryReleases]

@[simp] theorem readContext_state (i : Nat) (s : State) : (readContext i s).state = s := by
  unfold readContext
  split <;> rfl

/-! ## The Schedule Engine's events and requests -/

@[simp] theorem refreshProfiles_tb (s : State) : (refreshProfiles s).tb = s.tb :=
  foldl_tb _ _ s fun _ _ => rfl

@[simp] theorem takeSchedCommit_tb (m : SchedMethod) (s : State) : (takeSchedCommit m s).tb = s.tb := by
  simp [takeSchedCommit]

@[simp] theorem chargeMinute_tb (s : State) : (chargeMinute s).tb = s.tb := rfl
@[simp] theorem clearActivity_tb (s : State) : (clearActivity s).tb = s.tb := rfl
@[simp] theorem refill_tb (start : Bool) (today : Nat) (s : State) : (refill start today s).tb = s.tb := rfl

@[simp] theorem judgeOverride_tb (id : Nat) (k : OverrideKind) (s : State) : (judgeOverride id k s).tb = s.tb := by
  unfold judgeOverride
  split <;> simp

@[simp] theorem judgeOverrides_tb (s : State) : (judgeOverrides s).tb = s.tb := by
  simp [judgeOverrides]

@[simp] theorem commitAtMinute_tb (day : Bool) (s : State) : (commitAtMinute day s).tb = s.tb := by
  unfold commitAtMinute
  split <;> simp

@[simp] theorem minuteEvent_tb (m : Nat) (s : State) : (minuteEvent m s).tb = s.tb := by
  simp [minuteEvent]

@[simp] theorem observeMinute_tb (s : State) : (observeMinute s).tb = s.tb := by
  unfold observeMinute
  split <;> simp

@[simp] theorem changeOverrides_tb (id : Nat) (o : Overrides) (k : OverrideKind) (scope : OverrideScope) (s : State) :
    (changeOverrides id o k scope s).tb = s.tb := by
  simp [changeOverrides]

@[simp] theorem setOverrideTo_tb (id : Nat) (k : OverrideKind) (scope : OverrideScope) (s : State) :
    (setOverrideTo id k scope s).tb = s.tb := by
  simp [setOverrideTo]

@[simp] theorem clearOverrideOf_tb (id : Nat) (k : OverrideKind) (s : State) : (clearOverrideOf id k s).tb = s.tb := by
  unfold clearOverrideOf
  dsimp only
  split <;> simp

@[simp] theorem setOverride_tb (id kind scope : Nat) (s : State) : (setOverride id kind scope s).state.tb = s.tb := by
  unfold setOverride
  repeat' split
  all_goals simp

@[simp] theorem clearOverride_tb (id kind : Nat) (s : State) : (clearOverride id kind s).state.tb = s.tb := by
  unfold clearOverride
  repeat' split
  all_goals simp

@[simp] theorem toggleOverride_tb (id kind scope : Nat) (s : State) :
    (toggleOverride id kind scope s).state.tb = s.tb := by
  unfold toggleOverride
  repeat' split
  all_goals simp

@[simp] theorem grantBonus_tb (id minutes : Nat) (s : State) : (grantBonus id minutes s).state.tb = s.tb := by
  unfold grantBonus
  split <;> simp

@[simp] theorem onStaged_tb (f : SchedTables → SchedTables) (s : State) : (s.onStaged f).tb = s.tb := rfl

@[simp] theorem readMember_state (active : Bool) (i : Nat) (s : State) : (readMember active i s).state = s := by
  unfold readMember
  split <;> rfl

@[simp] theorem writeMember_tb (active : Bool) (i : Nat) (a : Addr) (profile : Nat) (s : State) :
    (writeMember active i a profile s).state.tb = s.tb := by
  unfold writeMember
  repeat' split
  all_goals rfl

@[simp] theorem clearMember_tb (active : Bool) (i : Nat) (s : State) : (clearMember active i s).state.tb = s.tb := by
  unfold clearMember
  repeat' split
  all_goals rfl

@[simp] theorem readProfile_state (active : Bool) (id : Nat) (s : State) : (readProfile active id s).state = s := by
  unfold readProfile
  split <;> rfl

@[simp] theorem writeProfile_tb (active : Bool) (id : Nat) (f : ProfileFields) (s : State) :
    (writeProfile active id f s).state.tb = s.tb := by
  unfold writeProfile
  repeat' split
  all_goals rfl

@[simp] theorem clearProfile_tb (active : Bool) (id : Nat) (s : State) : (clearProfile active id s).state.tb = s.tb := by
  unfold clearProfile
  repeat' split
  all_goals rfl

@[simp] theorem readSchedWindow_state (active : Bool) (i : Nat) (s : State) :
    (readSchedWindow active i s).state = s := by
  unfold readSchedWindow
  split <;> rfl

@[simp] theorem writeSchedWindow_tb (active : Bool) (i : Nat) (f : SchedWindowFields) (s : State) :
    (writeSchedWindow active i f s).state.tb = s.tb := by
  unfold writeSchedWindow
  repeat' split
  all_goals rfl

@[simp] theorem clearSchedWindow_tb (active : Bool) (i : Nat) (s : State) :
    (clearSchedWindow active i s).state.tb = s.tb := by
  unfold clearSchedWindow
  repeat' split
  all_goals rfl

@[simp] theorem commitSched_tb (method : Nat) (s : State) : (commitSched method s).state.tb = s.tb := by
  unfold commitSched
  repeat' split
  all_goals simp

@[simp] theorem discardSched_tb (s : State) : (discardSched s).state.tb = s.tb := rfl

@[simp] theorem readSchedState_state (a : Addr) (s : State) : (readSchedState a s).state = s := by
  unfold readSchedState
  split <;> rfl

/-! ## Apart from the quiet list and the counters -/

/-- The Time Base without its quiet list, which the distributor writes as well (R25, R168), and its counters, which
transmit-done and RESTART write as well (R75, R181). -/
def TimeBase.clock (t : TimeBase) : TimeBase := { t with quietList := [], counters := {} }

@[simp] theorem TimeBase.clock_counters (t : TimeBase) (c : SyncCounters) : { t with counters := c }.clock = t.clock := rfl

@[simp] theorem ite_clock (p : Prop) [Decidable p] (x y : TimeBase) :
    (if p then x else y).clock = if p then x.clock else y.clock := apply_ite TimeBase.clock p x y

@[simp] theorem ite_state (p : Prop) [Decidable p] (x y : Answer) :
    (if p then x else y).state = if p then x.state else y.state := apply_ite Answer.state p x y

/-! ## The Egress Service -/

/-- The count of beacons sent is all a transmit-done writes in the Time Base (R75). -/
@[simp] theorem txEnd_clock (p : Port) (f : QFrame) (success : Bool) (s : State) :
    (txEnd p f success s).tb.clock = s.tb.clock := by
  unfold txEnd
  dsimp only
  cases f.mark with
  | none => split <;> rfl
  | some m => split <;> simp

@[simp] theorem transmitDone_clock (p : Port) (success : Bool) (s : State) :
    (transmitDone p success s).tb.clock = s.tb.clock := by
  unfold transmitDone
  split <;> simp

@[simp] theorem dropHead_tb (id : QueueId) (index : Nat) (f : QFrame) (rest : List QFrame) (s : State) :
    (dropHead id index f rest s).tb = s.tb := by
  unfold dropHead
  dsimp only
  split <;> simp

@[simp] theorem judgeHeads_tb (fuel : Nat) (id : QueueId) (index : Nat) (w : Window) (s : State) :
    (judgeHeads fuel id index w s).tb = s.tb := by
  induction fuel generalizing s with
  | zero => rfl
  | succ fuel ih =>
    unfold judgeHeads
    split
    · rfl
    · split
      · rw [ih, dropHead_tb]
      · rfl

@[simp] theorem judgeQueue_tb (index : Nat) (w : Window) (s : State) (id : QueueId) :
    (judgeQueue index w s id).tb = s.tb := by
  simp [judgeQueue]

@[simp] theorem judgeOpening_tb (index : Nat) (w : Window) (s : State) : (judgeOpening index w s).tb = s.tb := by
  simp [judgeOpening]

@[simp] theorem observeWindow_tb (s : State) : (observeWindow s).tb = s.tb := by
  unfold observeWindow
  dsimp only
  repeat' split
  all_goals simp

@[simp] theorem readWindow_state (active : Bool) (i : Nat) (s : State) : (readWindow active i s).state = s := by
  unfold readWindow
  split <;> rfl

@[simp] theorem writeWindow_tb (active : Bool) (i : Nat) (f : WindowFields) (s : State) :
    (writeWindow active i f s).state.tb = s.tb := by
  unfold writeWindow
  repeat' split
  all_goals rfl

@[simp] theorem clearWindow_tb (active : Bool) (i : Nat) (s : State) : (clearWindow active i s).state.tb = s.tb := by
  unfold clearWindow
  repeat' split
  all_goals rfl

@[simp] theorem readPeer_state (node : Nat) (s : State) : (readPeer node s).state = s := by
  unfold readPeer
  split <;> rfl

@[simp] theorem writePeer_tb (node rate delay : Nat) (s : State) : (writePeer node rate delay s).state.tb = s.tb := by
  unfold writePeer
  split <;> rfl

@[simp] theorem clearPeer_tb (node : Nat) (s : State) : (clearPeer node s).state.tb = s.tb := by
  unfold clearPeer
  split <;> rfl

@[simp] theorem readQueueParams_state (i : Nat) (s : State) : (readQueueParams i s).state = s := by
  unfold readQueueParams
  split <;> rfl

@[simp] theorem setQueueParams_tb (port cls : Nat) (f : QueueFields) (s : State) :
    (setQueueParams port cls f s).state.tb = s.tb := by
  unfold setQueueParams
  repeat' split
  all_goals rfl

@[simp] theorem commitWindowNow_tb (s : State) : (commitWindowNow s).tb = s.tb := by
  simp [commitWindowNow]

@[simp] theorem commitWindow_tb (method : Nat) (s : State) : (commitWindow method s).state.tb = s.tb := by
  unfold commitWindow
  repeat' split
  all_goals simp

@[simp] theorem discardWindow_tb (s : State) : (discardWindow s).state.tb = s.tb := rfl

/-! ## The data intake -/

@[simp] theorem dropNoRoute_tb (f : QFrame) (s : State) : (dropNoRoute f s).tb = s.tb := rfl
@[simp] theorem toPort_tb (p : Port) (f : QFrame) (s : State) : (toPort p f s).tb = s.tb := rfl
@[simp] theorem toNode_tb (dst : Nat) (a : Option Addr) (f : QFrame) (s : State) : (toNode dst a f s).tb = s.tb := rfl

@[simp] theorem routeUnknown_tb (p : Port) (a : Option Addr) (f : QFrame) (s : State) :
    (routeUnknown p a f s).tb = s.tb := by
  cases p <;> simp [routeUnknown]

@[simp] theorem routeGone_tb (p : Port) (a : Option Addr) (f : QFrame) (st : StState) (s : State) :
    (routeGone p a f st s).tb = s.tb := by
  unfold routeGone
  repeat' split
  all_goals simp

@[simp] theorem routeEntry_tb (p : Port) (sender : Option Nat) (a : Option Addr) (f : QFrame) (e : Station) (s : State) :
    (routeEntry p sender a f e s).tb = s.tb := by
  unfold routeEntry
  repeat' split
  all_goals simp

@[simp] theorem placeGroup_tb (a : Option Addr) (f : QFrame) (q : Port) (s : State) :
    (placeGroup a f q s).tb = s.tb := by
  simp [placeGroup]

@[simp] theorem copyGroup_tb (a : Option Addr) (f : QFrame) (s : State) (q : Port) :
    (copyGroup a f s q).tb = s.tb := by
  simp [copyGroup]

@[simp] theorem routeGroup_tb (p : Port) (a : Option Addr) (f : QFrame) (s : State) : (routeGroup p a f s).tb = s.tb := by
  unfold routeGroup
  split <;> simp

@[simp] theorem route_tb (p : Port) (sender : Option Nat) (a : Option Addr) (f : QFrame) (s : State) :
    (route p sender a f s).tb = s.tb := by
  unfold route
  dsimp only
  repeat' split
  all_goals simp

@[simp] theorem scheduleDrop_tb (p : Port) (hdr : Option DataHdr) (n : Nat) (s : State) :
    (scheduleDrop p hdr n s).tb = s.tb := by
  cases hdr <;> simp [scheduleDrop]

@[simp] theorem deliver_tb (p : Port) (hdr : Option DataHdr) (a : Option Addr) (f : QFrame) (s : State) :
    (deliver p hdr a f s).tb = s.tb := by
  cases hdr <;> simp [deliver]

@[simp] theorem intakeTaken_tb (p : Port) (hdr : Option DataHdr) (frame : List Byte) (n : Nat) (s : State) :
    (intakeTaken p hdr frame n s).tb = s.tb := by
  simp [intakeTaken]

@[simp] theorem intake_tb (p : Port) (hdr : Option DataHdr) (frame : List Byte) (len : Nat) (s : State) :
    (intake p hdr frame len s).tb = s.tb := by
  simp [intake]

/-! ## The Image Engine -/

@[simp] theorem countIe_tb (f : IeCounters → IeCounters) (s : State) : (s.countIe f).tb = s.tb := rfl
@[simp] theorem onStaging_tb (f : SlotRec → SlotRec) (s : State) : (s.onStaging f).tb = s.tb := rfl
@[simp] theorem dropUnbegun_tb (s : State) : (dropUnbegun s).tb = s.tb := rfl
@[simp] theorem dropBegun_tb (s : State) : (dropBegun s).tb = s.tb := rfl
@[simp] theorem openSlot_tb (img : ImageInfo) (s : State) : (openSlot img s).tb = s.tb := rfl
@[simp] theorem failSlot_tb (n : Bool) (c : SlotCause) (s : State) : (failSlot n c s).tb = s.tb := rfl
@[simp] theorem enqueueBlock_tb (i : Nat) (data : List Byte) (n : Nat) (s : State) :
    (enqueueBlock i data n s).tb = s.tb := rfl
@[simp] theorem abortSlot_tb (s : State) : (abortSlot s).tb = s.tb := rfl
@[simp] theorem reply_tb (n query id : Nat) (b : ImageBody) (s : State) : (reply n query id b s).tb = s.tb := rfl

@[simp] theorem eraseDone_tb (success : Bool) (s : State) : (eraseDone success s).tb = s.tb := by
  unfold eraseDone
  split <;> simp

@[simp] theorem writeFailed_tb (n : Bool) (s : State) : (writeFailed n s).tb = s.tb := by
  unfold writeFailed
  dsimp only
  split <;> simp

@[simp] theorem writeDone_tb (success : Bool) (s : State) : (writeDone success s).tb = s.tb := by
  unfold writeDone
  split <;> simp

@[simp] theorem reportVerify_tb (n : Bool) (id : Nat) (r : ReplyTo) (isMatch : Bool) (s : State) :
    (reportVerify n id r isMatch s).tb = s.tb := by
  cases r <;> rfl

@[simp] theorem verifyOutcome_tb (n : Bool) (r : SlotRec) (p : ReplyTo) (success : Bool) (data : List Byte)
    (s : State) : (verifyOutcome n r p success data s).tb = s.tb := by
  simp [verifyOutcome]

@[simp] theorem verifyDone_tb (success : Bool) (data : List Byte) (s : State) : (verifyDone success data s).tb = s.tb := by
  unfold verifyDone
  dsimp only
  repeat' split
  all_goals simp

@[simp] theorem imageOpen_tb (img : ImageInfo) (replace : Bool) (s : State) :
    (imageOpen img replace s).state.tb = s.tb := by
  simp [imageOpen]

@[simp] theorem imageBlock_tb (port : Port) (i crc : Nat) (data : List Byte) (s : State) :
    (imageBlock port i crc data s).state.tb = s.tb := by
  unfold imageBlock
  dsimp only
  repeat' split
  all_goals rfl

@[simp] theorem imageClose_tb (s : State) : (imageClose s).state.tb = s.tb := by
  unfold imageClose
  split <;> rfl

@[simp] theorem imageAbort_tb (s : State) : (imageAbort s).state.tb = s.tb := by
  unfold imageAbort
  repeat' split
  all_goals rfl

@[simp] theorem imageCancel_tb (s : State) : (imageCancel s).state.tb = s.tb := by
  unfold imageCancel
  split <;> rfl

@[simp] theorem takeAnnounce_tb (src query : Nat) (img : ImageInfo) (replace : Bool) (s : State) :
    (takeAnnounce src query img replace s).tb = s.tb := by
  simp [takeAnnounce]

@[simp] theorem takeBlock_tb (id i crc : Nat) (data : List Byte) (n : Nat) (s : State) :
    (takeBlock id i crc data n s).tb = s.tb := by
  unfold takeBlock
  dsimp only
  repeat' split
  all_goals rfl

@[simp] theorem takeMapQuery_tb (src query id start : Nat) (s : State) : (takeMapQuery src query id start s).tb = s.tb :=
  rfl

@[simp] theorem takeVerifyQuery_tb (src query id : Nat) (s : State) : (takeVerifyQuery src query id s).tb = s.tb := by
  unfold takeVerifyQuery
  dsimp only
  repeat' split
  all_goals simp

@[simp] theorem disarm_tb (s : State) : (disarm s).tb = s.tb := by
  unfold disarm
  repeat' split
  all_goals simp

@[simp] theorem arm_tb (id : Nat) (c : Time) (s : State) : (arm id c s).tb = s.tb := by
  simp [arm]

@[simp] theorem judgePropose_tb (id : Nat) (c : Time) (force : Bool) (s : State) :
    (judgePropose id c force s).2.2.tb = s.tb := by
  unfold judgePropose
  dsimp only
  repeat' split
  all_goals simp

@[simp] theorem takePropose_tb (src query id : Nat) (c : Time) (force : Bool) (s : State) :
    (takePropose src query id c force s).tb = s.tb := by
  simp [takePropose]

@[simp] theorem takeCancel_tb (src query id : Nat) (s : State) : (takeCancel src query id s).tb = s.tb := by
  have answered (b : Bool) (x : State) : (reply src query id (.cancelReply b) x).tb = x.tb := rfl
  unfold takeCancel
  split
  · cases s.stagingState with
    | none => exact answered false s
    | some st =>
      cases st with
      | armed c => exact (answered true _).trans (disarm_tb s)
      | verified => exact answered true s
      | _ => exact answered false s
  · exact answered false s

/-- A judged quiet request changes at most the quiet list (R25). -/
@[simp] theorem judgeQuiet_clock (t : Time) (tb : TimeBase) : (judgeQuiet t tb).2.clock = tb.clock := by
  unfold judgeQuiet
  repeat' split
  all_goals rfl

@[simp] theorem takeQuietRequest_clock (src query id : Nat) (t : Time) (s : State) :
    (takeQuietRequest src query id t s).tb.clock = s.tb.clock := judgeQuiet_clock t s.tb

@[simp] theorem observeSwitch_tb (s : State) : (observeSwitch s).tb = s.tb := by
  unfold observeSwitch
  repeat' split
  all_goals simp

@[simp] theorem takeBlockFrame_tb (id i crc : Nat) (data : List Byte) (len : Nat) (s : State) :
    (takeBlockFrame id i crc data len s).tb = s.tb := by
  simp [takeBlockFrame]

/-! ## The distributor -/

/-- An operation over the distribution record keeps the Time Base when it does for every record. -/
@[simp] theorem withDist_tb (f : Dist → State → State) (s : State) (h : ∀ d, (f d s).tb = s.tb) :
    (withDist f s).tb = s.tb := by
  unfold withDist
  split
  · exact h _
  · rfl

@[simp] theorem withDist_clock (f : Dist → State → State) (s : State) (h : ∀ d, (f d s).tb.clock = s.tb.clock) :
    (withDist f s).tb.clock = s.tb.clock := by
  unfold withDist
  split
  · exact h _
  · rfl

@[simp] theorem raiseImage_tb (e : Event) (s : State) : (raiseImage e s).tb = s.tb := rfl
@[simp] theorem endQuery_tb (s : State) : (endQuery s).tb = s.tb := rfl
@[simp] theorem settle_tb (st : TargetState) (s : State) : (settle st s).tb = s.tb := rfl
@[simp] theorem settlePolled_tb (st : MapStatus) (s : State) : (settlePolled st s).tb = s.tb := rfl
@[simp] theorem startOp_tb (o : SlotOp) (s : State) : (startOp o s).tb = s.tb := rfl
@[simp] theorem startWrite_tb (w : WriteEntry) (rest : List WriteEntry) (s : State) : (startWrite w rest s).tb = s.tb :=
  rfl
@[simp] theorem endDist_tb (phase : Phase) (c : EndCause) (s : State) : (endDist phase c s).tb = s.tb := rfl

@[simp] theorem placeQuery_tb (dst id : Nat) (b : ImageBody) (s : State) : (placeQuery dst id b s).tb = s.tb := by
  simp [placeQuery]

@[simp] theorem sendQuery_tb (k : QueryKind) (s : State) : (sendQuery k s).tb = s.tb := by
  simp [sendQuery]

@[simp] theorem sendTo_tb (i : Nat) (k : QueryKind) (s : State) : (sendTo i k s).tb = s.tb := by
  simp [sendTo]

@[simp] theorem endDeferral_tb (s : State) : (endDeferral s).tb = s.tb := by
  simp [endDeferral]

@[simp] theorem cancelNext_tb (s : State) : (cancelNext s).tb = s.tb := by
  refine withDist_tb _ s fun d => ?_
  split <;> simp

@[simp] theorem deferPass_tb (node : Nat) (why : DeferReason) (s : State) : (deferPass node why s).tb = s.tb := by
  simp [deferPass]

@[simp] theorem judgeOwn_tb (s : State) : (judgeOwn s).tb = s.tb := by
  refine withDist_tb _ s fun d => ?_
  dsimp only
  split <;> simp

theorem proposeTo_of_none {i : Nat} {s : State} (h : s.ie.dist = none) : proposeTo i s = s := withDist_of_none h

/-- The two outcomes of a PROPOSE (R168). Proofs use this equation: unfolding `proposeTo` has the kernel compute the cutoff's
1,000,000 MU a second in unary. -/
theorem proposeTo_of_some {i : Nat} {s : State} {d : Dist} (h : s.ie.dist = some d) :
    proposeTo i s =
      if reached s.mt (proposeCutoff d s.ie.params.lead) then deferPass s.node .late s else sendTo i .propose s :=
  withDist_of_some h

@[simp] theorem proposeTo_tb (i : Nat) (s : State) : (proposeTo i s).tb = s.tb := by
  cases h : s.ie.dist with
  | none => rw [proposeTo_of_none h]
  | some d => rw [proposeTo_of_some h, ite_tb, deferPass_tb, sendTo_tb, ite_self]

@[simp] theorem proposeNext_tb (s : State) : (proposeNext s).tb = s.tb := by
  refine withDist_tb _ (s.onDist _) fun d => ?_
  split <;> simp

@[simp] theorem quietRefused_tb (st : Option Status) (s : State) : (quietRefused st s).tb = s.tb := by
  simp [quietRefused]

/-- The quiet cycle asked for changes at most the quiet list (R168). -/
@[simp] theorem askQuiet_clock (c : Time) (s : State) : (askQuiet c s).tb.clock = s.tb.clock := by
  unfold askQuiet
  split
  · dsimp only
    split <;> simp
  · split <;> simp

@[simp] theorem beginPass_clock (s : State) : (beginPass s).tb.clock = s.tb.clock := by
  simp [beginPass]

@[simp] theorem verifyNext_clock (s : State) : (verifyNext s).tb.clock = s.tb.clock := by
  refine withDist_clock _ (s.onDist _) fun d => ?_
  split <;> simp

@[simp] theorem loseTargets_tb (nodes : List Nat) (p : Phase) (s : State) : (loseTargets nodes p s).tb = s.tb :=
  foldl_tb _ nodes s fun _ _ => rfl

@[simp] theorem endPoll_clock (s : State) : (endPoll s).tb.clock = s.tb.clock := by
  refine withDist_clock _ s fun d => ?_
  dsimp only
  repeat' split
  all_goals simp

@[simp] theorem pollNext_clock (start : Nat) (s : State) : (pollNext start s).tb.clock = s.tb.clock := by
  refine withDist_clock _ (s.onDist _) fun d => ?_
  split <;> simp

@[simp] theorem announceNext_clock (s : State) : (announceNext s).tb.clock = s.tb.clock := by
  refine withDist_clock _ (s.onDist _) fun d => ?_
  repeat' split
  all_goals simp

/-- A reply changes of the Time Base what its taking changes. -/
theorem takeReply_clock (query : Nat) (answers : QueryKind → Bool) (f : Dist → QueryKind → State → State) (s : State)
    (h : ∀ d k x, (f d k x).tb.clock = x.tb.clock) : (takeReply query answers f s).tb.clock = s.tb.clock := by
  unfold takeReply
  dsimp only
  repeat' split
  all_goals simp [h]

@[simp] theorem takeAnnounceReply_clock (query : Nat) (r : AnnounceResult) (s : State) :
    (takeAnnounceReply query r s).tb.clock = s.tb.clock :=
  takeReply_clock _ _ _ s fun _ _ x => by simp

@[simp] theorem takeMapReport_clock (query : Nat) (m : MapContent) (s : State) :
    (takeMapReport query m s).tb.clock = s.tb.clock :=
  takeReply_clock _ _ _ s fun _ _ x => by
    dsimp only
    split <;> simp

@[simp] theorem takeVerifyReport_clock (query : Nat) (isMatch : Bool) (s : State) :
    (takeVerifyReport query isMatch s).tb.clock = s.tb.clock :=
  takeReply_clock _ _ _ s fun _ _ x => by simp

@[simp] theorem takeProposeReply_clock (query : Nat) (r : ProposeResult) (why : DeferReason) (s : State) :
    (takeProposeReply query r why s).tb.clock = s.tb.clock :=
  takeReply_clock _ _ _ s fun _ _ x => by cases r <;> simp

@[simp] theorem takeCancelReply_clock (query : Nat) (cancelled : Bool) (s : State) :
    (takeCancelReply query cancelled s).tb.clock = s.tb.clock :=
  takeReply_clock _ _ _ s fun _ _ x => by simp

@[simp] theorem takeQuietReply_clock (query : Nat) (st : Status) (s : State) :
    (takeQuietReply query st s).tb.clock = s.tb.clock :=
  takeReply_clock _ _ _ s fun _ _ x => by simp

@[simp] theorem resendQuery_tb (d : Dist) (k : QueryKind) (s : State) : (resendQuery d k s).tb = s.tb := by
  cases k <;> simp [resendQuery]

@[simp] theorem afterLost_clock (d : Dist) (k : QueryKind) (s : State) : (afterLost d k s).tb.clock = s.tb.clock := by
  cases k <;> simp [afterLost]

@[simp] theorem loseTarget_clock (d : Dist) (k : QueryKind) (s : State) : (loseTarget d k s).tb.clock = s.tb.clock := by
  simp [loseTarget]

@[simp] theorem timeoutQuery_clock (d : Dist) (k : QueryKind) (s : State) :
    (timeoutQuery d k s).tb.clock = s.tb.clock := by
  unfold timeoutQuery
  dsimp only
  repeat' split
  all_goals simp

@[simp] theorem observeTimeout_clock (s : State) : (observeTimeout s).tb.clock = s.tb.clock := by
  unfold observeTimeout
  repeat' split
  all_goals simp

@[simp] theorem observeInterval_clock (s : State) : (observeInterval s).tb.clock = s.tb.clock := by
  refine withDist_clock _ s fun d => ?_
  repeat' split
  all_goals simp

@[simp] theorem observeDone_tb (s : State) : (observeDone s).tb = s.tb := by
  refine withDist_tb _ s fun d => ?_
  split <;> simp

@[simp] theorem observeDrained_clock (s : State) : (observeDrained s).tb.clock = s.tb.clock := by
  refine withDist_clock _ s fun d => ?_
  repeat' split
  all_goals simp

@[simp] theorem startRead_tb (i : Nat) (s : State) : (startRead i s).tb = s.tb := by
  simp [startRead]

@[simp] theorem startFlash_tb (s : State) : (startFlash s).tb = s.tb := by
  unfold startFlash
  split
  · rfl
  · simp
  · simp
  · refine withDist_tb _ s fun d => ?_
    split <;> simp

@[simp] theorem abortDist_tb (c : EndCause) (s : State) : (abortDist c s).tb = s.tb := by
  refine withDist_tb _ s fun d => ?_
  have sent := foldl_tb (fun y (t : Target) => if t.st = .accepted then placeQuery t.node d.img.id .cancel y else y)
    d.targets s fun x t => by simp
  simp [sent]

@[simp] theorem readDone_tb (success : Bool) (data : List Byte) (s : State) : (readDone success data s).tb = s.tb := by
  unfold readDone
  split
  · split
    · split
      · refine withDist_tb _ (s.onIe _) fun d => ?_
        dsimp only
        split <;> rfl
      · simp
    · simp
  · rfl

@[simp] theorem distributeStart_clock (id : Nat) (replace : Bool) (targets : List Nat) (s : State) :
    (distributeStart id replace targets s).state.tb.clock = s.tb.clock := by
  unfold distributeStart
  repeat' split
  all_goals simp

@[simp] theorem distributeAbort_tb (s : State) : (distributeAbort s).state.tb = s.tb := by
  unfold distributeAbort
  split <;> simp

/-! ## The Control Unit -/

@[simp] theorem readStatus_state (block : Nat) (s : State) : (readStatus block s).state = s := by
  unfold readStatus
  dsimp only
  split <;> rfl

@[simp] theorem readCounters_state (block : Nat) (s : State) : (readCounters block s).state = s := by
  unfold readCounters
  split <;> rfl

@[simp] theorem clearCounters_clock (s : State) : (clearCounters s).tb.clock = s.tb.clock := rfl
@[simp] theorem restart_clock (s : State) : (restart s).tb.clock = s.tb.clock := rfl
@[simp] theorem setEnables_tb (mask : Nat) (s : State) : (setEnables mask s).tb = s.tb := rfl
@[simp] theorem ackEvents_tb (mask : Nat) (s : State) : (ackEvents mask s).tb = s.tb := rfl
@[simp] theorem register_tb (r : Registration) (s : State) : (register r s).tb = s.tb := rfl

@[simp] theorem setAdmission_tb (port setting : Nat) (s : State) : (setAdmission port setting s).state.tb = s.tb := by
  unfold setAdmission
  repeat' split
  all_goals rfl

@[simp] theorem registerController_tb (node port : Nat) (a : Addr) (s : State) :
    (registerController node port a s).state.tb = s.tb := by
  unfold registerController
  repeat' split
  all_goals rfl

/-! ## Radio sideband events -/

@[simp] theorem takeAssociate_tb (r : Radio) (a : Addr) (level : Int) (s : State) :
    (takeAssociate r a level s).tb = s.tb := by
  unfold takeAssociate
  dsimp only
  split
  · simp
  · split
    · next h => simp [roomForStation_tb h]
    · simp

@[simp] theorem takeSignal_tb (r : Radio) (a : Addr) (level : Int) (s : State) : (takeSignal r a level s).tb = s.tb := by
  unfold takeSignal
  dsimp only
  split <;> simp

@[simp] theorem takeDisassociate_tb (r : Radio) (a : Addr) (s : State) : (takeDisassociate r a s).tb = s.tb := by
  unfold takeDisassociate
  dsimp only
  split <;> simp

@[simp] theorem takeHeard_tb (a : Addr) (level : Int) (s : State) : (takeHeard a level s).tb = s.tb := by
  unfold takeHeard
  dsimp only
  repeat' split
  all_goals simp

/-! ## Requests and frames of the management kinds -/

/-- A request is answered on the state before it or on the one its rule leaves (R175). -/
theorem request_tb (h : ReqHead) (code : Nat) (rule : State → Answer) (s : State) :
    (request h code rule s).tb = s.tb ∨ (request h code rule s).tb = (rule s).state.tb := by
  unfold request
  split
  · exact .inl rfl
  · split
    · exact .inl rfl
    · split
      · exact .inl rfl
      · exact .inr rfl

@[simp] theorem request_clock (h : ReqHead) (code : Nat) (rule : State → Answer) (s : State)
    (hr : ∀ x, (rule x).state.tb.clock = x.tb.clock) : (request h code rule s).tb.clock = s.tb.clock := by
  rcases request_tb h code rule s with e | e
  · rw [e]
  · rw [e, hr]

/-- What the frame's handling keeps of the Time Base, its arrival keeps. -/
@[simp] theorem takeManaged_clock (p : Port) (k : Kind) (len : Nat) (handle : State → State) (s : State)
    (hh : ∀ x, (handle x).tb.clock = x.tb.clock) : (takeManaged p k len handle s).tb.clock = s.tb.clock := by
  unfold takeManaged
  dsimp only
  split
  · rw [hh, onIo_tb]
  · rfl

@[simp] theorem takeImage_clock (b : ImageBody) (handle : State → State) (s : State)
    (hh : ∀ x, (handle x).tb.clock = x.tb.clock) : (takeImage b handle s).tb.clock = s.tb.clock :=
  takeManaged_clock _ _ _ handle s hh

/-! ## What one step makes of the Time Base -/

/-- The ways the Time Base moves in one step: it keeps all but its quiet list and its counters, it lets a period of the
reference clock pass, or it takes a pin reset, a cycle start, a beacon or one of its own requests. -/
inductive TbMove (a : TimeBase) : TimeBase → Prop where
  | kept {b : TimeBase} (h : b.clock = a.clock) : TbMove a b
  | tick : TbMove a a.tick
  | pinReset (st : Straps) : TbMove a (State.pinReset st).tb
  | cycleStart (s : State) (h : s.tb = a) : TbMove a (cycleStart s).tb
  | beacon (b : Beacon) (ltCap : Time) (s : State) (h : s.tb = a) : TbMove a (takeBeacon b ltCap s).tb
  | setRate (n d : Nat) (s : State) (h : s.tb = a) : TbMove a (setRate n d s).state.tb
  | setSyncParams (f : SyncFields) (s : State) (h : s.tb = a) : TbMove a (setSyncParams f s).state.tb
  | syncControl (enable : Bool) (s : State) (h : s.tb = a) : TbMove a (syncControl enable s).state.tb
  | presetTime (delta : Int) (s : State) (h : s.tb = a) : TbMove a (presetTime delta s).state.tb
  | setCalendar (weekSec : Nat) (s : State) (h : s.tb = a) : TbMove a (setCalendar weekSec s).state.tb

theorem TbMove.of_tb_eq {a b : TimeBase} (h : b = a) : TbMove a b := .kept (congrArg TimeBase.clock h)

/-- A request moves the Time Base as its rule does, or not at all. -/
theorem TbMove.request {h : ReqHead} {code : Nat} {rule : State → Answer} {s : State}
    (hr : TbMove s.tb (rule s).state.tb) : TbMove s.tb (request h code rule s).tb := by
  rcases request_tb h code rule s with e | e
  · exact .of_tb_eq e
  · exact e ▸ hr

/-- REQUEST QUIET writes at most the quiet list (R25). -/
@[simp] theorem requestQuiet_clock (t : Time) (s : State) : (requestQuiet t s).state.tb.clock = s.tb.clock :=
  judgeQuiet_clock t s.tb

theorem observeCycle_tbMove (s : State) : TbMove s.tb (observeCycle s).tb := by
  unfold observeCycle
  split
  · exact .of_tb_eq rfl
  · exact .cycleStart s rfl

/-! ## Frames as a port delivers them -/

@[simp] theorem dropArrival_tb (n : Nat) (count : Io → Io) (s : State) : (dropArrival n count s).tb = s.tb := rfl

@[simp] theorem takeStation_tb (m : StationMsg) (s : State) : (takeStation m s).tb = s.tb := by
  cases m <;> simp [takeStation]

@[simp] theorem arriveStation_tb (payload : List Byte) (n : Nat) (s : State) :
    (arriveStation payload n s).tb = s.tb := by
  unfold arriveStation
  split <;> simp

@[simp] theorem takeImageMsg_clock (src : Nat) (m : ImageMsg) (s : State) :
    (takeImageMsg src m s).tb.clock = s.tb.clock := by
  unfold takeImageMsg
  split <;> simp

@[simp] theorem arriveImage_clock (src : Nat) (payload : List Byte) (n : Nat) (s : State) :
    (arriveImage src payload n s).tb.clock = s.tb.clock := by
  unfold arriveImage
  split
  · split <;> simp
  · rfl

@[simp] theorem arriveData_tb (h : RawHdr) (payload : List Byte) (n : Nat) (s : State) :
    (arriveData h payload n s).tb = s.tb := by
  simp [arriveData]

theorem arriveBeacon_tbMove (payload : List Byte) (stamp : Option Time) (n : Nat) (s : State) :
    TbMove s.tb (arriveBeacon payload stamp n s).tb := by
  unfold arriveBeacon
  split
  · exact .beacon _ _ _ rfl
  · exact .of_tb_eq rfl

theorem arriveBackhaul_tbMove (k : Kind) (h : RawHdr) (payload : List Byte) (stamp : Option Time) (n : Nat) (s : State) :
    TbMove s.tb (arriveBackhaul k h payload stamp n s).tb := by
  unfold arriveBackhaul
  split
  · exact arriveBeacon_tbMove payload stamp n s
  · exact .of_tb_eq rfl
  · exact .of_tb_eq rfl
  · split
    · split <;> exact .kept (by simp)
    · exact .of_tb_eq rfl

theorem arriveMesh_tbMove (p : Port) (m : List Byte) (stamp : Option Time) (n : Nat) (s : State) :
    TbMove s.tb (arriveMesh p m stamp n s).tb := by
  unfold arriveMesh
  dsimp only
  split
  · exact .of_tb_eq rfl
  · split
    · exact .of_tb_eq rfl
    · split
      · exact arriveBackhaul_tbMove ..
      · split <;> exact .of_tb_eq rfl

/-- A delivered frame moves the Time Base only as a beacon. -/
theorem deliverFrame_tbMove (p : Port) (f : List Byte) (stamp : Option Time) (s : State) :
    TbMove s.tb (deliverFrame p f stamp s).tb := by
  unfold deliverFrame
  split
  · exact .of_tb_eq rfl
  · dsimp only
    split
    · split
      · exact arriveMesh_tbMove p _ stamp _ (s.onIo _)
      · exact .of_tb_eq (by simp)
    · exact .of_tb_eq rfl

/-! ## Commands and steps -/

theorem beaconReceived_tbMove (b : Beacon) (ltCap : Time) (len : Nat) (s : State) :
    TbMove s.tb (takeManaged .fp3 .beacon len (takeBeacon b ltCap) s).tb := by
  unfold takeManaged
  dsimp only
  split
  · exact .beacon b ltCap _ rfl
  · exact .of_tb_eq rfl

/-- Every command answers a next state, with one of the moves of the Time Base. The commands named are those that write more
of it than the quiet list and the counters; each other one has a lemma on its meaning above. -/
theorem exec_tbMove (i : Instr) (s : State) : ∃ t, exec i s = .next t ∧ TbMove s.tb t.tb := by
  cases i
  case pinReset st => exact ⟨_, rfl, .pinReset st⟩
  case cycleStart => exact ⟨_, rfl, observeCycle_tbMove s⟩
  case beaconReceived b ltCap => exact ⟨_, rfl, beaconReceived_tbMove b ltCap _ s⟩
  case frameArrival p error bytes stamp =>
    refine ⟨_, rfl, ?_⟩
    split
    · exact .of_tb_eq rfl
    · exact deliverFrame_tbMove p bytes stamp s
  case setRate h n d => exact ⟨_, rfl, .request (.setRate n d s rfl)⟩
  case setSyncParameters h f => exact ⟨_, rfl, .request (.setSyncParams f s rfl)⟩
  case syncControl h enable => exact ⟨_, rfl, .request (.syncControl enable s rfl)⟩
  case presetTime h delta => exact ⟨_, rfl, .request (.presetTime delta s rfl)⟩
  case setCalendar h w => exact ⟨_, rfl, .request (.setCalendar w s rfl)⟩
  case pendingCutoverReached slot =>
    refine ⟨_, rfl, .of_tb_eq ?_⟩
    split <;> rfl
  case mapQuery => exact ⟨_, rfl, .kept (takeImage_clock _ _ s fun _ => rfl)⟩
  case clearCounters | writeEntryFlow | writeEntryStation | writeEntryContext | clearEntryContext | discardWindowTable
      | discardScheduleTables | setEventEnables | ackEvents | restart | setFramePathParameters | setClassifierParameters
      | setBackhaulParameters | setSteeringParameters | setHandoffParameters | setScheduleParameters
      | setImageParameters =>
    exact ⟨_, rfl, .kept (request_clock _ _ _ s fun _ => rfl)⟩
  all_goals exact ⟨_, rfl, .kept (by simp)⟩

theorem tbMove_of_exec {i : Instr} {s t : State} (h : exec i s = .next t) : TbMove s.tb t.tb := by
  obtain ⟨u, hu, hm⟩ := exec_tbMove i s
  cases hu.symm.trans h
  exact hm

@[simp] theorem followTs_tb (s : State) : (followTs s).tb = s.tb := by
  simp [followTs]

theorem tick_tb (s : State) : (tick s).tb = s.tb.tick := by
  simp [tick]

theorem tbMove_of_idle {s t : State} (h : idle s = .next t) : TbMove s.tb t.tb := by
  unfold idle at h
  split at h
  · exact tbMove_of_exec h
  · split at h
    · next r rest _ =>
      have hs : (s.onIo (Io.onCu fun c => { c with queue := rest })).tb = s.tb := rfl
      unfold runHead at h
      dsimp only at h
      split at h
      · exact hs ▸ tbMove_of_exec h
      · cases h
        exact .kept (request_clock _ _ _ _ fun _ => rfl)
    · cases h
      exact tick_tb s ▸ .tick

/-- Every step moves the Time Base in one of the ways listed. -/
theorem tbMove_of_step {s t : State} (h : step s = .next t) : TbMove s.tb t.tb := by
  unfold step at h
  split at h
  · exact tbMove_of_idle h
  · next i rest _ => exact tbMove_of_exec (s := { s with pending := rest }) h

/-! ## The rate registers -/

/-- N, D, N_base and the carried fraction; every other field of the Time Base at its reset value. -/
def TimeBase.rate (t : TimeBase) : TimeBase :=
  { n := t.n, d := t.d, nBase := t.nBase, fracNum := t.fracNum, fracDen := t.fracDen }

theorem TimeBase.rate_of_clock {a b : TimeBase} (h : b.clock = a.clock) : b.rate = a.rate :=
  show b.clock.rate = a.clock.rate from congrArg TimeBase.rate h

@[simp] theorem ite_rate (p : Prop) [Decidable p] (x y : TimeBase) :
    (if p then x else y).rate = if p then x.rate else y.rate := apply_ite TimeBase.rate p x y

/-- N lies in the trim band of N_base, and N_base is at least 8 times D (R2). -/
def TimeBase.InBand (t : TimeBase) : Prop :=
  bandLow t.nBase ≤ t.n ∧ t.n ≤ bandHigh t.nBase ∧ 8 * t.d ≤ t.nBase

theorem rateInBand_iff (s : State) : RateInBand s ↔ s.tb.InBand := Iff.rfl

/-- The band is one of the rate registers alone. -/
theorem TimeBase.InBand.of_rate {a b : TimeBase} (ha : a.InBand) (h : b.rate = a.rate) : b.InBand :=
  (show b.rate.InBand from h ▸ show a.rate.InBand from ha)

theorem pinReset_nBase (st : Straps) : (State.pinReset st).tb.nBase = 163840 := rfl

theorem pinReset_inBand (st : Straps) : (State.pinReset st).tb.InBand := by
  change bandLow 163840 ≤ 163840 ∧ 163840 ≤ bandHigh 163840 ∧ 8 * 4096 ≤ 163840
  decide

/-! ## What keeps the rate registers -/

@[simp] theorem noticeTs_tb (s : State) : (noticeTs s).tb = s.tb := rfl

@[simp] theorem afterStep_tb (moved : Bool) (s : State) : (afterStep moved s).tb = s.tb := by
  simp [afterStep]

@[simp] theorem countTb_rate (f : SyncCounters → SyncCounters) (s : State) : (s.countTb f).tb.rate = s.tb.rate := rfl

@[simp] theorem exitRoot_rate (s : State) : (exitRoot s).tb.rate = s.tb.rate := by
  unfold exitRoot
  split <;> rfl

@[simp] theorem syncControl_rate (enable : Bool) (s : State) : (syncControl enable s).state.tb.rate = s.tb.rate := by
  unfold syncControl
  split
  · rw [ok_state]
    split <;> rfl
  · exact exitRoot_rate s

@[simp] theorem yieldByPriority_rate (s : State) : (yieldByPriority s).tb.rate = s.tb.rate := by
  unfold yieldByPriority
  split
  · exact exitRoot_rate s
  · rfl

@[simp] theorem setSyncParams_rate (f : SyncFields) (s : State) : (setSyncParams f s).state.tb.rate = s.tb.rate := by
  unfold setSyncParams
  dsimp only
  split
  · rfl
  · split
    · rfl
    · exact yieldByPriority_rate (s.onTb _)

@[simp] theorem presetTime_rate (delta : Int) (s : State) : (presetTime delta s).state.tb.rate = s.tb.rate := by
  unfold presetTime
  repeat' split
  all_goals rfl

@[simp] theorem setCalendar_rate (w : Nat) (s : State) : (setCalendar w s).state.tb.rate = s.tb.rate := by
  unfold setCalendar
  split <;> rfl

@[simp] theorem adoptCalendar_rate (b : Beacon) (s : State) : (adoptCalendar b s).tb.rate = s.tb.rate := by
  unfold adoptCalendar
  split
  · rfl
  · split <;> rfl

@[simp] theorem applyPreset_rate (s : State) : (applyPreset s).tb.rate = s.tb.rate := by
  unfold applyPreset
  split
  · simp [TimeBase.rate]
  · rfl

@[simp] theorem enterRoot_rate (s : State) : (enterRoot s).tb.rate = s.tb.rate := rfl

@[simp] theorem watch_rate (s : State) : (watch s).tb.rate = s.tb.rate := by
  unfold watch
  dsimp only
  split
  · split <;> rfl
  · split <;> rfl
  · rfl
  · rfl
  · split <;> rfl

@[simp] theorem sendBeacon_rate (mtb : Time) (s : State) : (sendBeacon mtb s).tb.rate = s.tb.rate := by
  unfold sendBeacon
  dsimp only
  split
  · split <;> rfl
  · rfl

@[simp] theorem periodEnd_tb (s : State) : (periodEnd s).tb = s.tb := by
  simp [periodEnd]

/-- A cycle start keeps the rate registers. -/
@[simp] theorem cycleStart_rate (s : State) : (cycleStart s).tb.rate = s.tb.rate := by
  have marked (start : Time) (count : Nat) (t : TimeBase) : { judgeMark start t with lastCount := count }.rate = t.rate :=
    rfl
  simp [cycleStart, marked]

/-! ## What a beacon makes of the rate (R19) -/

/-- A number clamped to the trim band lies in it. -/
theorem clamp_mem_band (b n : Nat) : bandLow b ≤ clamp (bandLow b) (bandHigh b) n ∧
    clamp (bandLow b) (bandHigh b) n ≤ bandHigh b := by
  unfold clamp bandLow bandHigh
  omega

/-- A rate correction clamps the new numerator to the band (R2, R19). -/
theorem correctRate_inBand (b : Beacon) (ltCap : Time) {s : State} (hs : s.tb.InBand) :
    (correctRate b ltCap s).tb.InBand := by
  unfold correctRate
  dsimp only
  split
  · exact hs
  · split
    · rw [onTb_tb, ite_tb, onIo_tb, ite_self]
      exact ⟨(clamp_mem_band _ _).1, (clamp_mem_band _ _).2, hs.2.2⟩
    · exact hs

theorem afterBeacon_inBand (b : Beacon) (ltCap : Time) {s : State} (hs : s.tb.InBand) :
    (afterBeacon b ltCap s).tb.InBand := by
  have corrected : (if s.tb.countOf b.mtb = 0 ∧ s.tb.sync.following then adoptCalendar b (correctRate b ltCap s)
      else s).tb.InBand := by
    split
    · exact (correctRate_inBand b ltCap hs).of_rate (adoptCalendar_rate b _)
    · exact hs
  unfold afterBeacon
  dsimp only
  split
  · exact corrected
  · exact corrected

/-- A taken beacon keeps the band, whatever sync state and events it brings. -/
theorem takeStep_inBand (b : Beacon) (ltCap : Time) (new : TimeBase → TimeBase) (events : State → State) {s : State}
    (hs : s.tb.InBand) (hn : ∀ t, (new t).rate = t.rate) (he : ∀ x, (events x).tb = x.tb) :
    (takeStep b ltCap new events s).tb.InBand := by
  unfold takeStep
  refine afterBeacon_inBand b ltCap ?_
  rw [afterStep_tb, he]
  split
  · exact hs.of_rate (hn _)
  · exact hs.of_rate (hn _)

theorem takeFollowed_inBand (b : Beacon) (ltCap : Time) {s : State} (hs : s.tb.InBand) :
    (takeFollowed b ltCap s).tb.InBand := by
  unfold takeFollowed
  refine takeStep_inBand b ltCap _ _ hs (fun _ => rfl) fun x => ?_
  split <;> rfl

theorem takeFollow_inBand (another : Bool) (b : Beacon) (ltCap : Time) {s : State} (hs : s.tb.InBand) :
    (takeFollow another b ltCap s).tb.InBand := by
  unfold takeFollow
  refine takeStep_inBand b ltCap _ _ (hs.of_rate (exitRoot_rate s)) (fun _ => rfl) fun x => ?_
  split <;> rfl

theorem takeBeacon_inBand (b : Beacon) (ltCap : Time) {s : State} (hs : s.tb.InBand) :
    (takeBeacon b ltCap s).tb.InBand := by
  unfold takeBeacon
  dsimp only
  split
  · exact hs
  · split
    · exact hs
    · split
      · exact takeFollowed_inBand b ltCap hs
      · exact takeFollow_inBand _ b ltCap hs
      · exact hs
      · exact hs

/-! ## SET RATE (R2) -/

theorem setRate_of_lt {n d : Nat} (h : clamp 1 262143 n < 8 * clamp 1 16383 d) (s : State) :
    setRate n d s = refuse .malformed s := if_pos h

theorem setRate_of_le {n d : Nat} (h : 8 * clamp 1 16383 d ≤ clamp 1 262143 n) (s : State) :
    setRate n d s = ok (s.onTb fun t =>
      { t.setRate (clamp 1 262143 n) (clamp 1 16383 d) with nBase := clamp 1 262143 n, rateAnchor := none }) :=
  if_neg (Nat.not_lt.2 h)

theorem setRate_inBand (n d : Nat) {s : State} (hs : s.tb.InBand) : (setRate n d s).state.tb.InBand := by
  rcases Nat.lt_or_ge (clamp 1 262143 n) (8 * clamp 1 16383 d) with h | h
  · rw [setRate_of_lt h]
    exact hs
  · rw [setRate_of_le h]
    exact ⟨Nat.sub_le _ _, Nat.le_add_right _ _, h⟩

/-- A write of N keeps the carried fraction: the new ratio is the old one, cross-multiplied (R2, log 11). -/
theorem TimeBase.setRate_frac (n d : Nat) (t : TimeBase) :
    (t.setRate n d).fracNum * t.fracDen = t.fracNum * (t.setRate n d).fracDen := by
  let g := Nat.gcd t.fracNum t.fracDen
  let q := t.fracDen / g
  let den := Nat.lcm q n
  have hnum : t.fracNum / g * g = t.fracNum := Nat.div_mul_cancel (Nat.gcd_dvd_left _ _)
  have hq : q * g = t.fracDen := Nat.div_mul_cancel (Nat.gcd_dvd_right _ _)
  have hden : den / q * q = den := Nat.div_mul_cancel (Nat.dvd_lcm_left _ _)
  calc t.fracNum / g * (den / q) * t.fracDen
      = t.fracNum / g * (den / q) * (q * g) := by rw [hq]
    _ = t.fracNum / g * g * (den / q * q) := by rw [Nat.mul_comm q g, Nat.mul_mul_mul_comm]
    _ = t.fracNum * den := by rw [hnum, hden]

/-! ## Every step -/

theorem TbMove.inBand {a b : TimeBase} (h : TbMove a b) (ha : a.InBand) : b.InBand := by
  cases h with
  | kept h => exact ha.of_rate (TimeBase.rate_of_clock h)
  | tick => exact ha
  | pinReset st => exact pinReset_inBand st
  | cycleStart s h => exact (h ▸ ha).of_rate (cycleStart_rate s)
  | beacon b ltCap s h => exact takeBeacon_inBand b ltCap (h ▸ ha)
  | setRate n d s h => exact setRate_inBand n d (h ▸ ha)
  | setSyncParams f s h => exact (h ▸ ha).of_rate (setSyncParams_rate f s)
  | syncControl enable s h => exact (h ▸ ha).of_rate (syncControl_rate enable s)
  | presetTime delta s h => exact (h ▸ ha).of_rate (presetTime_rate delta s)
  | setCalendar w s h => exact (h ▸ ha).of_rate (setCalendar_rate w s)

theorem rateInBand_keptByStep : KeptByStep RateInBand := fun s t hs h =>
  (rateInBand_iff t).2 ((tbMove_of_step h).inBand ((rateInBand_iff s).1 hs))

/-! ## The requests answered -/

theorem exec_setRate (h : ReqHead) (n d : Nat) (s : State) :
    exec (.setRate h n d) s = .next (request h 16 (setRate n d) s) := rfl

theorem exec_setCalendar (h : ReqHead) (w : Nat) (s : State) :
    exec (.setCalendar h w) s = .next (request h 20 (setCalendar w) s) := rfl

theorem exec_restart (h : ReqHead) (s : State) :
    exec (.restart h) s = .next (request h 13 (fun x => ok (restart x)) s) := rfl

/-- RESTART keeps N, D and N_base (R2). -/
theorem restart_keeps_rate {h : ReqHead} (ha : h.admitted) (s : State) :
    ∃ t, exec (.restart h) s = .next t ∧ t.tb.n = s.tb.n ∧ t.tb.d = s.tb.d ∧ t.tb.nBase = s.tb.nBase :=
  ⟨answered h 13 .ok [] (restart s), by rw [exec_restart, request_of_admitted ha]; rfl, rfl, rfl, rfl⟩

/-- SET RATE below 8 times the denominator (R2). -/
theorem exec_setRate_refused {h : ReqHead} (ha : h.admitted) {n d : Nat}
    (hlt : clamp 1 262143 n < 8 * clamp 1 16383 d) (s : State) :
    exec (.setRate h n d) s = .next (answered h 16 .malformed [] s) := by
  rw [exec_setRate, request_of_admitted ha, setRate_of_lt hlt]
  rfl

/-- SET RATE at 8 times the denominator or above (R2): the registers written and the carried fraction kept. -/
theorem exec_setRate_written {h : ReqHead} (ha : h.admitted) {n d : Nat}
    (hle : 8 * clamp 1 16383 d ≤ clamp 1 262143 n) (s : State) :
    ∃ num den, num * s.tb.fracDen = s.tb.fracNum * den ∧
      exec (.setRate h n d) s = .next (answered h 16 .ok []
        { s with tb := { s.tb with
            n := clamp 1 262143 n, d := clamp 1 16383 d, nBase := clamp 1 262143 n, rateAnchor := none,
            fracNum := num, fracDen := den } }) := by
  refine ⟨_, _, s.tb.setRate_frac (clamp 1 262143 n) (clamp 1 16383 d), ?_⟩
  rw [exec_setRate, request_of_admitted ha, setRate_of_le hle]
  rfl

/-! ## SET CALENDAR (R22) -/

theorem setCalendar_of_refused {s : State} (hr : s.tb.sync ≠ .root) (hf : s.tb.sync ≠ .free) (w : Nat) :
    setCalendar w s = refuse .notRoot s := if_neg (not_or.2 ⟨hr, hf⟩)

theorem setCalendar_of_taken {s : State} (hs : s.tb.sync = .root ∨ s.tb.sync = .free) (w : Nat) :
    setCalendar w s = ok
      { s with
        tb := { s.tb with cal := {
          anchor := s.mt, weekSec := min 604799 w, gen := (s.tb.cal.gen + 1) % 256, valid := true,
          unmatched := s.tb.cal.unmatched } }
        se := { s.se with ts := s.mt } } := by
  have hw : clamp 0 604799 w = min 604799 w := Nat.zero_max _
  rw [← hw]
  exact if_pos hs

/-- A beacon of count 0 carries a valid calendar record, one of another count none (R16, R22). -/
theorem beaconOf_cal {s : State} (hv : s.tb.cal.valid = true) (mtb : Time) (q : Bool) :
    (beaconOf s mtb q).cal =
      if s.tb.countOf mtb = 0 then some { anchor := s.tb.cal.anchor, weekSec := s.tb.cal.weekSec, gen := s.tb.cal.gen }
      else none := by
  simp [beaconOf, hv]

end Sys2Proof.Machine
end

section
/-! PROOFS. The statements on SET RATE and SET CALENDAR. -/

open Sys2Proof Sys2Proof.Machine

/-- Settles O14: the two outcomes of SET RATE, the band kept by every move of the Time Base, its values after pin reset,
and RESTART. -/
theorem setRateWritesTheRate : Obligations.SetRateWritesTheRate := by
  refine ⟨fun h n d s ha => ⟨fun hlt => ?_, fun hle => ?_⟩, rateInBand_keptByStep, fun st => ?_, fun h s ha => ?_⟩
  · exact exec_setRate_refused ha hlt s
  · exact exec_setRate_written ha hle s
  · have hb := pinReset_nBase st
    exact ⟨(rateInBand_iff _).2 (pinReset_inBand st), hb, by rw [hb], by rw [hb]⟩
  · exact restart_keeps_rate ha s

/-- Settles O17: SET CALENDAR where it is taken and where it is refused, and the record in a beacon of count 0. -/
theorem setCalendarWritesTheRecord : Obligations.SetCalendarWritesTheRecord := by
  refine ⟨fun h w s ha => ⟨fun hs => ?_, fun hr hf => ?_⟩, fun s mtb q hv => beaconOf_cal hv mtb q⟩
  · rw [exec_setCalendar, request_of_admitted ha, setCalendar_of_taken hs]
    rfl
  · rw [exec_setCalendar, request_of_admitted ha, setCalendar_of_refused hr hf]
    rfl

end

section
/-! PROOFS. What a step makes of the credits (R72): the account of a port, and a lemma for each operation that keeps the
accounts; the list of the moves a step can make of the credits; their range under each move. A lemma `_io` says that an
operation changes nothing of `Io`, a lemma `_accounts` that it keeps the accounts of the ports. -/

namespace Sys2Proof.Machine

/-! ## The account of a port -/

/-- A port's credits, its parameters as written and in use, and its transmitter; every other field at its reset
value. -/
def PortEgress.account (e : PortEgress) : PortEgress :=
  { credit := e.credit, written := e.written, inUse := e.inUse, tx := e.tx }

theorem account_eq_iff {a b : PortEgress} :
    b.account = a.account ↔ b.credit = a.credit ∧ b.written = a.written ∧ b.inUse = a.inUse ∧ b.tx = a.tx := by
  simp [PortEgress.account]

/-- The accounts of the four ports. -/
def Io.accounts (io : Io) : PerPort PortEgress := io.es.ports.map PortEgress.account

@[simp] theorem PerPort.get_map {α β : Type} (f : α → β) (v : PerPort α) (p : Port) :
    (v.map f).get p = f (v.get p) := by
  cases p <;> rfl

theorem PerPort.ext_get {α : Type} {v w : PerPort α} (h : ∀ p, v.get p = w.get p) : v = w := by
  cases v
  cases w
  exact congr (congr (congr (congrArg PerPort.mk (h .fp0)) (h .fp1)) (h .fp2)) (h .fp3)

theorem Io.accounts_get (io : Io) (p : Port) : io.accounts.get p = (io.port p).account := PerPort.get_map _ _ p

theorem Io.accounts_ext {a b : Io} (h : ∀ p, (b.port p).account = (a.port p).account) : b.accounts = a.accounts :=
  PerPort.ext_get fun p => by rw [Io.accounts_get, Io.accounts_get, h p]

theorem account_eq_of_accounts {a b : Io} (h : b.accounts = a.accounts) (p : Port) :
    (b.port p).account = (a.port p).account := by
  rw [← Io.accounts_get, ← Io.accounts_get, h]

/-- What keeps all that `Io.Kept` lists keeps the accounts. -/
theorem Io.Kept.accounts {a b : Io} (h : Io.Kept a b) : b.accounts = a.accounts :=
  Io.accounts_ext fun p => account_eq_iff.2 ⟨h.credit p, h.written p, h.inUse p, h.tx p⟩

theorem ToldKept.accounts {s t : State} (h : ToldKept s t) : t.io.accounts = s.io.accounts := h.io.accounts

/-! ## Shared shapes -/

@[simp] theorem ite_io (p : Prop) [Decidable p] (x y : State) :
    (if p then x else y).io = if p then x.io else y.io := apply_ite State.io p x y

@[simp] theorem ite_accounts (p : Prop) [Decidable p] (x y : Io) :
    (if p then x else y).accounts = if p then x.accounts else y.accounts := apply_ite Io.accounts p x y

/-- Steps taken in turn keep what each of them keeps. -/
theorem foldl_kept {α β γ : Type} (g : β → γ) (f : β → α → β) (l : List α) (b : β) (h : ∀ x a, g (f x a) = g x) :
    g (l.foldl f b) = g b :=
  List.foldlRecOn (motive := fun x => g x = g b) l f rfl fun x hx a _ => (h x a).trans hx

@[simp] theorem foldl_accounts {α : Type} (f : State → α → State) (l : List α) (s : State)
    (h : ∀ x a, (f x a).io.accounts = x.io.accounts) : (l.foldl f s).io.accounts = s.io.accounts :=
  foldl_kept (·.io.accounts) f l s h

/-! ## The shared operations -/

@[simp] theorem onCu_accounts (f : ControlUnit → ControlUnit) (io : Io) : (io.onCu f).accounts = io.accounts := rfl
@[simp] theorem bumpFree_accounts (io : Io) : io.bumpFree.accounts = io.accounts := rfl
@[simp] theorem freeCells_accounts (n : Nat) (io : Io) : (freeCells n io).accounts = io.accounts := rfl
@[simp] theorem countFp_accounts (f : FpCounters → FpCounters) (io : Io) : (countFp f io).accounts = io.accounts := rfl
@[simp] theorem countCu_accounts (f : CuCounters → CuCounters) (io : Io) : (countCu f io).accounts = io.accounts := rfl
@[simp] theorem countNoRoute_accounts (io : Io) : (countNoRoute io).accounts = io.accounts := rfl
@[simp] theorem countFrameIn_accounts (p : Port) (io : Io) : (countFrameIn p io).accounts = io.accounts := rfl

@[simp] theorem onEs_accounts (f : Egress → Egress) (io : Io) (h : (f io.es).ports = io.es.ports) :
    (io.onEs f).accounts = io.accounts := congrArg (PerPort.map PortEgress.account) h

@[simp] theorem onPort_accounts (p : Port) (f : PortEgress → PortEgress) (io : Io)
    (hc : (f (io.port p)).credit = (io.port p).credit) (hw : (f (io.port p)).written = (io.port p).written)
    (hi : (f (io.port p)).inUse = (io.port p).inUse) (ht : (f (io.port p)).tx = (io.port p).tx) :
    (io.onPort p f).accounts = io.accounts :=
  Io.accounts_ext fun q => onPort_field PortEgress.account p q f io (account_eq_iff.2 ⟨hc, hw, hi, ht⟩)

@[simp] theorem countEs_accounts (p : Port) (f : EsCounters → EsCounters) (io : Io) :
    (countEs p f io).accounts = io.accounts := (kept_countEs p f io).accounts

@[simp] theorem raise_accounts (e : Event) (io : Io) : (raise e io).accounts = io.accounts := (kept_raise e io).accounts

@[simp] theorem sendNotice_accounts (c : Category) (io : Io) : (sendNotice c io).accounts = io.accounts :=
  (kept_sendNotice c io).accounts

@[simp] theorem allocMgmt_accounts (p : Port) (k : Kind) (n : Nat) (io : Io) :
    (allocMgmt p k n io).2.accounts = io.accounts := (kept_allocMgmt p k n io).accounts

@[simp] theorem allocData_accounts (p : Port) (n : Nat) (io : Io) : (allocData p n io).2.accounts = io.accounts :=
  (kept_allocData p n io).accounts

@[simp] theorem placeMgmt_accounts (p : Port) (f : QFrame) (io : Io) : (placeMgmt p f io).2.accounts = io.accounts :=
  (kept_placeMgmt p f io).accounts

@[simp] theorem sendMgmt_accounts (p : Port) (f : QFrame) (io : Io) : (sendMgmt p f io).2.accounts = io.accounts :=
  (kept_sendMgmt p f io).accounts

@[simp] theorem sendStation_accounts (dst : Nat) (m : StationMsg) (io : Io) :
    (sendStation dst m io).2.accounts = io.accounts := sendMgmt_accounts _ _ _

@[simp] theorem sendImage_accounts (dst : Nat) (m : ImageMsg) (io : Io) :
    (sendImage dst m io).2.accounts = io.accounts := sendMgmt_accounts _ _ _

@[simp] theorem respond_accounts (tag code : Nat) (st : Status) (recs : List (List Byte)) (io : Io) :
    (respond tag code st recs io).accounts = io.accounts := (kept_respond tag code st recs io).accounts

@[simp] theorem placeClass_accounts (limited : Bool) (p : Port) (f : QFrame) (io : Io) :
    (placeClass limited p f io).2.accounts = io.accounts := by
  unfold placeClass
  split <;> simp

/-- A request keeps the accounts, or leaves those its rule leaves (R175). -/
theorem request_accounts_or (h : ReqHead) (code : Nat) (rule : State → Answer) (s : State) :
    (request h code rule s).io.accounts = s.io.accounts ∨
      (request h code rule s).io.accounts = (rule s).state.io.accounts := by
  unfold request
  split
  · exact .inl (by simp)
  · split
    · exact .inl (by simp)
    · split
      · exact .inl (by simp)
      · exact .inr (by simp)

@[simp] theorem request_accounts (h : ReqHead) (code : Nat) (rule : State → Answer) (s : State)
    (hr : ∀ x, (rule x).state.io.accounts = x.io.accounts) :
    (request h code rule s).io.accounts = s.io.accounts := by
  rcases request_accounts_or h code rule s with e | e
  · exact e
  · rw [e, hr]

/-! ## The Schedule Engine's allowances -/

@[simp] theorem formAllowance_accounts (profile : Nat) (source : Option Allowance) (charge : Nat) (new : Bool)
    (s : State) : (formAllowance profile source charge new s).2.io.accounts = s.io.accounts := by
  unfold formAllowance
  repeat' split
  all_goals simp

/-! ## The Classifier -/

@[simp] theorem applyFlows_io (a : Addr) (s : State) : (applyFlows a s).io = s.io := rfl
@[simp] theorem flowsEnterAway_io (a : Addr) (s : State) : (flowsEnterAway a s).io = s.io := rfl
@[simp] theorem flowsLeaveAway_io (a : Addr) (s : State) : (flowsLeaveAway a s).io = s.io := rfl
@[simp] theorem modifyEntry_io (a : Addr) (f : Station → Station) (s : State) : (s.modifyEntry a f).io = s.io := rfl
@[simp] theorem addActivity_io (a : Addr) (n : Nat) (s : State) : (addActivity a n s).io = s.io := rfl
@[simp] theorem markRematch_io (p : Flow → Bool) (s : State) : (markRematch p s).io = s.io := rfl
@[simp] theorem setRule_io (i : Nat) (r : ClassRule) (s : State) : (setRule i r s).io = s.io := rfl

theorem roomForFlow_io {s t : State} {i : Nat} (h : roomForFlow s = some (i, t)) : t.io = s.io := by
  unfold roomForFlow at h
  split at h
  · cases h; rfl
  · split at h
    · cases h; rfl
    · cases h

@[simp] theorem throughFlow_io (i : Nat) (e : Station) (len : Nat) (hint : Option Nat) (f : Flow) (s : State) :
    (throughFlow i e len hint f s).state.io = s.io := rfl

@[simp] theorem rulesOnly_io (r : RuleResult) (held : Option (EffState × Profile)) (s : State) :
    (rulesOnly r held s).state.io = s.io := by
  cases held <;> rfl

@[simp] theorem classifyUsable_accounts (p : Port) (e : Station) (len : Nat) (hint : Option Nat) (key : FlowKey)
    (s : State) : (classifyUsable p e len hint key s).state.io.accounts = s.io.accounts := by
  unfold classifyUsable
  split
  · split <;> simp
  · split
    · next h => simp [roomForFlow_io h]
    · simp

@[simp] theorem classifyRules_io (p : Port) (e : Option Station) (frame : List Byte) (s : State) :
    (classifyRules p e frame s).state.io = s.io := by
  unfold classifyRules
  dsimp only
  split
  · cases e <;> simp
  · simp

@[simp] theorem classify_accounts (p : Port) (e : Option Station) (hint : Option Nat) (frame : List Byte) (s : State) :
    (classify p e hint frame s).state.io.accounts = s.io.accounts := by
  unfold classify
  split
  · split <;> simp
  · simp

@[simp] theorem scoreFlow_accounts (i : Nat) (s : State) : (scoreFlow i s).io.accounts = s.io.accounts := by
  unfold scoreFlow
  split <;> simp

@[simp] theorem classifierPeriod_accounts (s : State) : (classifierPeriod s).io.accounts = s.io.accounts := by
  simp [classifierPeriod]

@[simp] theorem takeHint_accounts (a : Addr) (s : State) (h : Hint) :
    (takeHint a s h).io.accounts = s.io.accounts := by
  unfold takeHint
  dsimp only
  split
  · split <;> simp
  · split <;> simp

@[simp] theorem takeHints_accounts (a : Addr) (hs : List Hint) (s : State) :
    (takeHints a hs s).io.accounts = s.io.accounts := by
  simp [takeHints]

@[simp] theorem writeRule_io (i : Nat) (f : ClassRuleFields) (s : State) : (writeRule i f s).state.io = s.io := by
  unfold writeRule
  repeat' split
  all_goals simp

@[simp] theorem clearRule_io (i : Nat) (s : State) : (clearRule i s).state.io = s.io := by
  unfold clearRule
  split <;> simp

@[simp] theorem clearFlow_io (i : Nat) (s : State) : (clearFlow i s).state.io = s.io := by
  unfold clearFlow
  split <;> rfl

/-! ## The Station Unit -/

@[simp] theorem countSu_io (f : SuCounters → SuCounters) (s : State) : (s.countSu f).io = s.io := rfl
@[simp] theorem countSe_io (f : SeCounters → SeCounters) (s : State) : (s.countSe f).io = s.io := rfl
@[simp] theorem putEntry_io (i : Nat) (a : Addr) (st : StState) (s : State) : (putEntry i a st s).io = s.io := rfl

@[simp] theorem noEntry_accounts (a : Addr) (r : Radio) (s : State) :
    (noEntry a r s).io.accounts = s.io.accounts := by
  simp [noEntry]

@[simp] theorem dropStale_io (s : State) : (dropStale s).io = s.io := rfl

@[simp] theorem computeState_accounts (a : Addr) (s : State) : (computeState a s).io.accounts = s.io.accounts := by
  unfold computeState
  split
  · rfl
  · dsimp only
    rw [applyFlows_io]
    split <;> simp

@[simp] theorem computeStates_accounts (p : Station → Bool) (s : State) :
    (computeStates p s).io.accounts = s.io.accounts := by
  simp [computeStates]

@[simp] theorem changeState_accounts (a : Addr) (st : StState) (s : State) :
    (changeState a st s).io.accounts = s.io.accounts := by
  unfold changeState
  split <;> simp

theorem roomForStation_io {s t : State} {i : Nat} (h : roomForStation s = some (i, t)) : t.io = s.io := by
  unfold roomForStation at h
  split at h
  · cases h; rfl
  · split at h
    · obtain ⟨j, -, he⟩ := Option.map_eq_some_iff.1 h
      cases he; rfl
    · cases h

@[simp] theorem reportSlot_accounts (i : Nat) (acc : Nat × Option Nat × State) :
    (reportSlot i acc).2.2.io.accounts = acc.2.2.io.accounts := by
  unfold reportSlot
  dsimp only
  split
  · rfl
  · split
    · rfl
    · split <;> simp

@[simp] theorem sendHearings_accounts (s : State) : (sendHearings s).io.accounts = s.io.accounts := by
  have h := foldl_kept (fun acc => acc.2.2.io.accounts)
    (fun acc k => reportSlot ((s.su.scanPos + k) % Config.stationCount) acc) (List.range Config.stationCount)
    (0, none, s) fun acc _ => reportSlot_accounts _ acc
  unfold sendHearings
  generalize List.foldl _ _ _ = r at h ⊢
  dsimp only
  split <;> exact h

@[simp] theorem takeHearing_io (m : HearingMsg) (s : State) : (takeHearing m s).io = s.io := by
  unfold takeHearing
  split <;> simp

@[simp] theorem steerTest_accounts (r : Radio) (e : Station) (s0 : Int) (best : Hearing) (active : Bool) (s : State) :
    (steerTest r e s0 best active s).io.accounts = s.io.accounts := by
  simp [steerTest]

@[simp] theorem steerEntry_accounts (before s : State) (i : Nat) :
    (steerEntry before s i).io.accounts = s.io.accounts := by
  unfold steerEntry
  repeat' split
  all_goals simp

@[simp] theorem stationPeriod_accounts (before s : State) : (stationPeriod before s).io.accounts = s.io.accounts := by
  simp [stationPeriod]

@[simp] theorem purge_io (s : State) : (purge s).io = s.io :=
  foldl_kept State.io _ _ s fun _ _ => rfl

@[simp] theorem clearStationEntry_io (i : Nat) (s : State) : (clearStationEntry i s).state.io = s.io := by
  unfold clearStationEntry
  split
  · split <;> rfl
  · rfl

/-! ## The Handoff Unit -/

@[simp] theorem countHu_io (f : HuCounters → HuCounters) (s : State) : (s.countHu f).io = s.io := rfl
@[simp] theorem modifyCtx_io (i : Nat) (f : Context → Context) (s : State) : (s.modifyCtx i f).io = s.io := rfl
@[simp] theorem freeCtx_io (i : Nat) (s : State) : (s.freeCtx i).io = s.io := rfl
@[simp] theorem placeCtx_io (i : Nat) (c : Context) (s : State) : (s.placeCtx i c).io = s.io := rfl
@[simp] theorem onWaiting_io (i : Nat) (f : Waiting → Waiting) (s : State) : (s.onWaiting i f).io = s.io := rfl
@[simp] theorem countDrop_io (i : Nat) (s : State) : (s.countDrop i).io = s.io := rfl
@[simp] theorem dropHeld_accounts (s : State) (f : QFrame) : (dropHeld s f).io.accounts = s.io.accounts := rfl

@[simp] theorem contextLost_accounts (a : Addr) (peer : Nat) (s : State) :
    (contextLost a peer s).io.accounts = s.io.accounts := by
  simp [contextLost]

@[simp] theorem contextFull_accounts (a : Addr) (r : Role) (s : State) :
    (contextFull a r s).io.accounts = s.io.accounts := by
  simp [contextFull]

@[simp] theorem switchServer_io (a : Addr) (s : State) : (switchServer a s).io = s.io := rfl
@[simp] theorem newAway_io (i : Nat) (a : Addr) (st : StState) (s : State) : (newAway i a st s).io = s.io := rfl
@[simp] theorem storeRelease_io (i : Nat) (f : Context → Context) (r : Release) (s : State) :
    (storeRelease i f r s).io = s.io := rfl

@[simp] theorem sendClaim_accounts (a : Addr) (prev : Nat) (cutover : Time) (s : State) :
    (sendClaim a prev cutover s).io.accounts = s.io.accounts := by
  simp [sendClaim]

@[simp] theorem sendRelease_accounts (a : Addr) (peer n : Nat) (sn : Option Allowance) (hints : List Hint) (s : State) :
    (sendRelease a peer n sn hints s).2.io.accounts = s.io.accounts :=
  (toldKept_sendRelease a peer n sn hints s).accounts

@[simp] theorem tryRelease_accounts (i : Nat) (s : State) : (tryRelease i s).io.accounts = s.io.accounts :=
  (toldKept_tryRelease i s).accounts

@[simp] theorem toldFwd_accounts (m : Mark) (success : Bool) (s : State) :
    (toldFwd m success s).io.accounts = s.io.accounts :=
  (toldKept_toldFwd m success s).accounts

@[simp] theorem enterFlushing_accounts (i : Nat) (s : State) : (enterFlushing i s).io.accounts = s.io.accounts := by
  simp [enterFlushing]

@[simp] theorem forwardFrame_accounts (limited : Bool) (i : Nat) (s : State) (f : QFrame) :
    (forwardFrame limited i s f).io.accounts = s.io.accounts := by
  unfold forwardFrame
  split
  · rfl
  · split <;> simp

@[simp] theorem holdFrame_accounts (i : Nat) (c : Context) (f : QFrame) (s : State) :
    (holdFrame i c f s).io.accounts = s.io.accounts := by
  simp [holdFrame]

@[simp] theorem settleEntry_accounts (c : Context) (source : Option Allowance) (s : State) :
    (settleEntry c source s).io.accounts = s.io.accounts := by
  unfold settleEntry
  split
  · rfl
  · split <;> simp

@[simp] theorem dropSnapshot_io (a : Addr) (s : State) : (dropSnapshot a s).io = s.io := by
  unfold dropSnapshot
  split <;> rfl

@[simp] theorem placeHeld_accounts (i : Nat) (a : Addr) (s : State) (f : QFrame) :
    (placeHeld i a s f).io.accounts = s.io.accounts := by
  unfold placeHeld
  split <;> simp

@[simp] theorem raiseOverflow_accounts (i : Nat) (s : State) : (raiseOverflow i s).io.accounts = s.io.accounts := by
  unfold raiseOverflow
  split <;> simp

@[simp] theorem completeArrival_accounts (i : Nat) (c : Context) (source : Option Allowance) (s : State) :
    (completeArrival i c source s).io.accounts = s.io.accounts := by
  simp [completeArrival]

@[simp] theorem testArrival_accounts (i : Nat) (s : State) : (testArrival i s).io.accounts = s.io.accounts := by
  unfold testArrival
  repeat' split
  all_goals simp

@[simp] theorem endArrival_accounts (i : Nat) (s : State) : (endArrival i s).io.accounts = s.io.accounts := by
  unfold endArrival
  split
  · split <;> simp
  · rfl

@[simp] theorem formSnapshot_accounts (c : Context) (w : Waiting) (predecessor charge : Nat) (s : State) :
    (formSnapshot c w predecessor charge s).2.io.accounts = s.io.accounts := by
  unfold formSnapshot
  split <;> simp

@[simp] theorem endAwait_accounts (i : Nat) (c : Context) (w : Waiting) (predecessor charge : Nat) (cutover : Time)
    (forwarded outstanding : Nat) (s : State) :
    (endAwait i c w predecessor charge cutover forwarded outstanding s).io.accounts = s.io.accounts := by
  simp [endAwait]

@[simp] theorem testAwait_accounts (i : Nat) (s : State) : (testAwait i s).io.accounts = s.io.accounts := by
  unfold testAwait
  repeat' split
  all_goals simp

@[simp] theorem endPredecessor_accounts (i : Nat) (s : State) : (endPredecessor i s).io.accounts = s.io.accounts := by
  unfold endPredecessor
  split
  · split <;> simp
  · rfl

@[simp] theorem countIn_accounts (i : Nat) (s : State) : (countIn i s).io.accounts = s.io.accounts := by
  simp [countIn]

@[simp] theorem strayFwd_accounts (a : Addr) (sender : Nat) (f : QFrame) (s : State) :
    (strayFwd a sender f s).io.accounts = s.io.accounts := by
  unfold strayFwd
  split <;> simp

@[simp] theorem takeFwd_accounts (a : Addr) (sender : Nat) (f : QFrame) (s : State) :
    (takeFwd a sender f s).io.accounts = s.io.accounts := by
  unfold takeFwd
  split
  · split <;> simp
  · split
    · split <;> simp
    · simp

@[simp] theorem toldFwdDrop_accounts (a : Addr) (s : State) : (toldFwdDrop a s).io.accounts = s.io.accounts := by
  unfold toldFwdDrop
  repeat' split
  all_goals simp

@[simp] theorem takeRelease_accounts (r : Release) (s : State) : (takeRelease r s).io.accounts = s.io.accounts := by
  unfold takeRelease
  dsimp only
  repeat' split
  all_goals simp

@[simp] theorem endEarly_accounts (i : Nat) (c : Context) (s : State) :
    (endEarly i c s).io.accounts = s.io.accounts := by
  unfold endEarly
  dsimp only
  rw [countHu_io, freeCtx_io, sendRelease_accounts, ite_io, ite_accounts]
  cases c.st <;> simp

@[simp] theorem endDepart_accounts (a : Addr) (s : State) : (endDepart a s).io.accounts = s.io.accounts := by
  unfold endDepart
  split <;> simp

@[simp] theorem depart_accounts (c : Claim) (e : Station) (s : State) :
    (depart c e s).io.accounts = s.io.accounts := by
  unfold depart
  dsimp only
  split <;> simp

@[simp] theorem convert_accounts (c : Claim) (charge : Nat) (s : State) :
    (convert c charge s).io.accounts = s.io.accounts := by
  unfold convert
  dsimp only
  rw [countHu_io, changeState_accounts]
  split <;> simp

@[simp] theorem takeClaim_accounts (c : Claim) (s : State) : (takeClaim c s).io.accounts = s.io.accounts := by
  unfold takeClaim
  dsimp only
  split
  · rfl
  · split
    · split <;> simp
    · split <;> simp

@[simp] theorem resume_accounts (a : Addr) (radio : Radio) (allow : Allowance) (s : State) :
    (resume a radio allow s).io.accounts = s.io.accounts := by
  simp [resume]

@[simp] theorem createArrive_accounts (i : Nat) (radio : Radio) (e : Station) (s : State) :
    (createArrive i radio e s).io.accounts = s.io.accounts := by
  unfold createArrive
  dsimp only
  rw [sendClaim_accounts]
  repeat' split
  all_goals simp

@[simp] theorem arriveWithout_accounts (radio : Radio) (e : Station) (s : State) :
    (arriveWithout radio e s).io.accounts = s.io.accounts := by
  unfold arriveWithout
  dsimp only
  rw [contextFull_accounts, sendClaim_accounts]
  cases s.departOf e.addr with
  | none => simp
  | some d =>
    dsimp only
    split <;> simp

@[simp] theorem arrive_accounts (a : Addr) (radio : Radio) (s : State) :
    (arrive a radio s).io.accounts = s.io.accounts := by
  unfold arrive
  repeat' split
  all_goals simp

@[simp] theorem endLinger_accounts (i : Nat) (s : State) : (endLinger i s).io.accounts = s.io.accounts := by
  unfold endLinger
  repeat' split
  all_goals simp

@[simp] theorem retryReleases_accounts (s : State) : (retryReleases s).io.accounts = s.io.accounts := by
  simp [retryReleases]

/-! ## The Schedule Engine's events and requests -/

@[simp] theorem refreshProfiles_io (s : State) : (refreshProfiles s).io = s.io :=
  foldl_kept State.io _ _ s fun _ _ => rfl

@[simp] theorem takeSchedCommit_accounts (m : SchedMethod) (s : State) :
    (takeSchedCommit m s).io.accounts = s.io.accounts := by
  simp [takeSchedCommit]

@[simp] theorem chargeMinute_io (s : State) : (chargeMinute s).io = s.io := rfl
@[simp] theorem clearActivity_io (s : State) : (clearActivity s).io = s.io := rfl
@[simp] theorem refill_io (start : Bool) (today : Nat) (s : State) : (refill start today s).io = s.io := rfl

@[simp] theorem judgeOverride_accounts (id : Nat) (k : OverrideKind) (s : State) :
    (judgeOverride id k s).io.accounts = s.io.accounts := by
  unfold judgeOverride
  split <;> simp

@[simp] theorem judgeOverrides_accounts (s : State) : (judgeOverrides s).io.accounts = s.io.accounts := by
  simp [judgeOverrides]

@[simp] theorem commitAtMinute_accounts (day : Bool) (s : State) :
    (commitAtMinute day s).io.accounts = s.io.accounts := by
  unfold commitAtMinute
  split <;> simp

@[simp] theorem minuteEvent_accounts (m : Nat) (s : State) : (minuteEvent m s).io.accounts = s.io.accounts := by
  simp [minuteEvent]

@[simp] theorem observeMinute_accounts (s : State) : (observeMinute s).io.accounts = s.io.accounts := by
  unfold observeMinute
  split <;> simp

@[simp] theorem changeOverrides_accounts (id : Nat) (o : Overrides) (k : OverrideKind) (scope : OverrideScope)
    (s : State) : (changeOverrides id o k scope s).io.accounts = s.io.accounts := by
  simp [changeOverrides]

@[simp] theorem setOverrideTo_accounts (id : Nat) (k : OverrideKind) (scope : OverrideScope) (s : State) :
    (setOverrideTo id k scope s).io.accounts = s.io.accounts := by
  simp [setOverrideTo]

@[simp] theorem clearOverrideOf_accounts (id : Nat) (k : OverrideKind) (s : State) :
    (clearOverrideOf id k s).io.accounts = s.io.accounts := by
  unfold clearOverrideOf
  dsimp only
  split <;> simp

@[simp] theorem setOverride_accounts (id kind scope : Nat) (s : State) :
    (setOverride id kind scope s).state.io.accounts = s.io.accounts := by
  unfold setOverride
  repeat' split
  all_goals simp

@[simp] theorem clearOverride_accounts (id kind : Nat) (s : State) :
    (clearOverride id kind s).state.io.accounts = s.io.accounts := by
  unfold clearOverride
  repeat' split
  all_goals simp

@[simp] theorem toggleOverride_accounts (id kind scope : Nat) (s : State) :
    (toggleOverride id kind scope s).state.io.accounts = s.io.accounts := by
  unfold toggleOverride
  repeat' split
  all_goals simp

@[simp] theorem grantBonus_accounts (id minutes : Nat) (s : State) :
    (grantBonus id minutes s).state.io.accounts = s.io.accounts := by
  unfold grantBonus
  split <;> simp

@[simp] theorem writeMember_io (active : Bool) (i : Nat) (a : Addr) (profile : Nat) (s : State) :
    (writeMember active i a profile s).state.io = s.io := by
  unfold writeMember
  repeat' split
  all_goals rfl

@[simp] theorem clearMember_io (active : Bool) (i : Nat) (s : State) : (clearMember active i s).state.io = s.io := by
  unfold clearMember
  repeat' split
  all_goals rfl

@[simp] theorem writeProfile_io (active : Bool) (id : Nat) (f : ProfileFields) (s : State) :
    (writeProfile active id f s).state.io = s.io := by
  unfold writeProfile
  repeat' split
  all_goals rfl

@[simp] theorem clearProfile_io (active : Bool) (id : Nat) (s : State) :
    (clearProfile active id s).state.io = s.io := by
  unfold clearProfile
  repeat' split
  all_goals rfl

@[simp] theorem writeSchedWindow_io (active : Bool) (i : Nat) (f : SchedWindowFields) (s : State) :
    (writeSchedWindow active i f s).state.io = s.io := by
  unfold writeSchedWindow
  repeat' split
  all_goals rfl

@[simp] theorem clearSchedWindow_io (active : Bool) (i : Nat) (s : State) :
    (clearSchedWindow active i s).state.io = s.io := by
  unfold clearSchedWindow
  repeat' split
  all_goals rfl

@[simp] theorem commitSched_accounts (method : Nat) (s : State) :
    (commitSched method s).state.io.accounts = s.io.accounts := by
  unfold commitSched
  repeat' split
  all_goals simp

/-! ## The Egress Service, but for the choice, transmit-done, cycle starts and the queue parameters -/

@[simp] theorem setQ_credit (e : PortEgress) (id : QueueId) (l : List QFrame) : (e.setQ id l).credit = e.credit := by
  cases id <;> rfl

@[simp] theorem setQ_written (e : PortEgress) (id : QueueId) (l : List QFrame) : (e.setQ id l).written = e.written := by
  cases id <;> rfl

@[simp] theorem setQ_inUse (e : PortEgress) (id : QueueId) (l : List QFrame) : (e.setQ id l).inUse = e.inUse := by
  cases id <;> rfl

@[simp] theorem setQ_tx (e : PortEgress) (id : QueueId) (l : List QFrame) : (e.setQ id l).tx = e.tx := by
  cases id <;> rfl

@[simp] theorem dropOversize_accounts (id : QueueId) (index : Nat) (f : QFrame) (rest : List QFrame) (io : Io) :
    (dropOversize id index f rest io).accounts = io.accounts := by
  simp [dropOversize]

@[simp] theorem dropHead_accounts (id : QueueId) (index : Nat) (f : QFrame) (rest : List QFrame) (s : State) :
    (dropHead id index f rest s).io.accounts = s.io.accounts := by
  unfold dropHead
  dsimp only
  split <;> simp

@[simp] theorem judgeHeads_accounts (fuel : Nat) (id : QueueId) (index : Nat) (w : Window) (s : State) :
    (judgeHeads fuel id index w s).io.accounts = s.io.accounts := by
  induction fuel generalizing s with
  | zero => rfl
  | succ fuel ih =>
    unfold judgeHeads
    split
    · rfl
    · split
      · rw [ih, dropHead_accounts]
      · rfl

@[simp] theorem judgeQueue_accounts (index : Nat) (w : Window) (s : State) (id : QueueId) :
    (judgeQueue index w s id).io.accounts = s.io.accounts := by
  simp [judgeQueue]

@[simp] theorem judgeOpening_accounts (index : Nat) (w : Window) (s : State) :
    (judgeOpening index w s).io.accounts = s.io.accounts := by
  simp [judgeOpening]

@[simp] theorem observeWindow_accounts (s : State) : (observeWindow s).io.accounts = s.io.accounts := by
  unfold observeWindow
  dsimp only
  repeat' split
  all_goals simp

@[simp] theorem writeWindow_accounts (active : Bool) (i : Nat) (f : WindowFields) (s : State) :
    (writeWindow active i f s).state.io.accounts = s.io.accounts := by
  unfold writeWindow
  repeat' split
  all_goals rfl

@[simp] theorem clearWindow_accounts (active : Bool) (i : Nat) (s : State) :
    (clearWindow active i s).state.io.accounts = s.io.accounts := by
  unfold clearWindow
  repeat' split
  all_goals rfl

@[simp] theorem writePeer_accounts (node rate delay : Nat) (s : State) :
    (writePeer node rate delay s).state.io.accounts = s.io.accounts := by
  unfold writePeer
  split <;> rfl

@[simp] theorem clearPeer_accounts (node : Nat) (s : State) :
    (clearPeer node s).state.io.accounts = s.io.accounts := by
  unfold clearPeer
  split <;> rfl

@[simp] theorem takeWindowCommit_accounts (m : WindowMethod) (mt : Time) (io : Io) :
    (takeWindowCommit m mt io).accounts = io.accounts := by
  simp [takeWindowCommit]

@[simp] theorem commitWindowNow_accounts (s : State) : (commitWindowNow s).io.accounts = s.io.accounts := by
  simp [commitWindowNow]

@[simp] theorem commitWindow_accounts (method : Nat) (s : State) :
    (commitWindow method s).state.io.accounts = s.io.accounts := by
  unfold commitWindow
  repeat' split
  all_goals simp

/-! ## The data intake -/

@[simp] theorem dropNoRoute_accounts (f : QFrame) (s : State) : (dropNoRoute f s).io.accounts = s.io.accounts := rfl

@[simp] theorem toPort_accounts (p : Port) (f : QFrame) (s : State) : (toPort p f s).io.accounts = s.io.accounts := by
  simp [toPort]

@[simp] theorem toNode_accounts (dst : Nat) (a : Option Addr) (f : QFrame) (s : State) :
    (toNode dst a f s).io.accounts = s.io.accounts := by
  simp [toNode]

@[simp] theorem routeUnknown_accounts (p : Port) (a : Option Addr) (f : QFrame) (s : State) :
    (routeUnknown p a f s).io.accounts = s.io.accounts := by
  cases p <;> simp [routeUnknown]

@[simp] theorem routeGone_accounts (p : Port) (a : Option Addr) (f : QFrame) (st : StState) (s : State) :
    (routeGone p a f st s).io.accounts = s.io.accounts := by
  unfold routeGone
  repeat' split
  all_goals simp

@[simp] theorem routeEntry_accounts (p : Port) (sender : Option Nat) (a : Option Addr) (f : QFrame) (e : Station)
    (s : State) : (routeEntry p sender a f e s).io.accounts = s.io.accounts := by
  unfold routeEntry
  repeat' split
  all_goals simp

@[simp] theorem placeGroup_accounts (a : Option Addr) (f : QFrame) (q : Port) (s : State) :
    (placeGroup a f q s).io.accounts = s.io.accounts := by
  simp [placeGroup]

@[simp] theorem copyGroup_accounts (a : Option Addr) (f : QFrame) (s : State) (q : Port) :
    (copyGroup a f s q).io.accounts = s.io.accounts := by
  simp [copyGroup]

@[simp] theorem routeGroup_accounts (p : Port) (a : Option Addr) (f : QFrame) (s : State) :
    (routeGroup p a f s).io.accounts = s.io.accounts := by
  unfold routeGroup
  split <;> simp

@[simp] theorem route_accounts (p : Port) (sender : Option Nat) (a : Option Addr) (f : QFrame) (s : State) :
    (route p sender a f s).io.accounts = s.io.accounts := by
  unfold route
  dsimp only
  repeat' split
  all_goals simp

@[simp] theorem scheduleDrop_accounts (p : Port) (hdr : Option DataHdr) (n : Nat) (s : State) :
    (scheduleDrop p hdr n s).io.accounts = s.io.accounts := by
  cases hdr <;> simp [scheduleDrop]

@[simp] theorem deliver_accounts (p : Port) (hdr : Option DataHdr) (a : Option Addr) (f : QFrame) (s : State) :
    (deliver p hdr a f s).io.accounts = s.io.accounts := by
  cases hdr <;> simp [deliver]

@[simp] theorem intakeTaken_accounts (p : Port) (hdr : Option DataHdr) (frame : List Byte) (n : Nat) (s : State) :
    (intakeTaken p hdr frame n s).io.accounts = s.io.accounts := by
  simp [intakeTaken]

@[simp] theorem intake_accounts (p : Port) (hdr : Option DataHdr) (frame : List Byte) (len : Nat) (s : State) :
    (intake p hdr frame len s).io.accounts = s.io.accounts := by
  simp [intake]

/-! ## The Image Engine -/

@[simp] theorem countIe_io (f : IeCounters → IeCounters) (s : State) : (s.countIe f).io = s.io := rfl
@[simp] theorem onStaging_io (f : SlotRec → SlotRec) (s : State) : (s.onStaging f).io = s.io := rfl
@[simp] theorem dropUnbegun_accounts (s : State) : (dropUnbegun s).io.accounts = s.io.accounts := rfl
@[simp] theorem dropBegun_accounts (s : State) : (dropBegun s).io.accounts = s.io.accounts := rfl
@[simp] theorem openSlot_accounts (img : ImageInfo) (s : State) : (openSlot img s).io.accounts = s.io.accounts := rfl

@[simp] theorem failSlot_accounts (n : Bool) (c : SlotCause) (s : State) :
    (failSlot n c s).io.accounts = s.io.accounts := by
  simp [failSlot]

@[simp] theorem enqueueBlock_io (i : Nat) (data : List Byte) (n : Nat) (s : State) :
    (enqueueBlock i data n s).io = s.io := rfl

@[simp] theorem reply_accounts (n query id : Nat) (b : ImageBody) (s : State) :
    (reply n query id b s).io.accounts = s.io.accounts := by
  simp [reply]

@[simp] theorem eraseDone_accounts (success : Bool) (s : State) :
    (eraseDone success s).io.accounts = s.io.accounts := by
  unfold eraseDone
  split <;> simp

@[simp] theorem writeFailed_accounts (n : Bool) (s : State) : (writeFailed n s).io.accounts = s.io.accounts := by
  unfold writeFailed
  dsimp only
  split <;> simp

@[simp] theorem writeDone_accounts (success : Bool) (s : State) :
    (writeDone success s).io.accounts = s.io.accounts := by
  unfold writeDone
  split <;> simp

@[simp] theorem reportVerify_accounts (n : Bool) (id : Nat) (r : ReplyTo) (isMatch : Bool) (s : State) :
    (reportVerify n id r isMatch s).io.accounts = s.io.accounts := by
  cases r <;> simp [reportVerify]

@[simp] theorem verifyOutcome_accounts (n : Bool) (r : SlotRec) (p : ReplyTo) (success : Bool) (data : List Byte)
    (s : State) : (verifyOutcome n r p success data s).io.accounts = s.io.accounts := by
  simp [verifyOutcome]

@[simp] theorem verifyDone_accounts (success : Bool) (data : List Byte) (s : State) :
    (verifyDone success data s).io.accounts = s.io.accounts := by
  unfold verifyDone
  dsimp only
  repeat' split
  all_goals simp

@[simp] theorem imageOpen_accounts (img : ImageInfo) (replace : Bool) (s : State) :
    (imageOpen img replace s).state.io.accounts = s.io.accounts := by
  simp [imageOpen]

@[simp] theorem imageBlock_accounts (port : Port) (i crc : Nat) (data : List Byte) (s : State) :
    (imageBlock port i crc data s).state.io.accounts = s.io.accounts := by
  unfold imageBlock
  dsimp only
  repeat' split
  all_goals simp

@[simp] theorem imageClose_io (s : State) : (imageClose s).state.io = s.io := by
  unfold imageClose
  split <;> rfl

@[simp] theorem imageAbort_accounts (s : State) : (imageAbort s).state.io.accounts = s.io.accounts := by
  unfold imageAbort
  repeat' split
  all_goals rfl

@[simp] theorem imageCancel_io (s : State) : (imageCancel s).state.io = s.io := by
  unfold imageCancel
  split <;> rfl

@[simp] theorem takeAnnounce_accounts (src query : Nat) (img : ImageInfo) (replace : Bool) (s : State) :
    (takeAnnounce src query img replace s).io.accounts = s.io.accounts := by
  simp [takeAnnounce]

@[simp] theorem takeBlock_accounts (id i crc : Nat) (data : List Byte) (n : Nat) (s : State) :
    (takeBlock id i crc data n s).io.accounts = s.io.accounts := by
  unfold takeBlock
  dsimp only
  repeat' split
  all_goals rfl

@[simp] theorem takeMapQuery_accounts (src query id start : Nat) (s : State) :
    (takeMapQuery src query id start s).io.accounts = s.io.accounts := by
  simp [takeMapQuery]

@[simp] theorem takeVerifyQuery_accounts (src query id : Nat) (s : State) :
    (takeVerifyQuery src query id s).io.accounts = s.io.accounts := by
  unfold takeVerifyQuery
  dsimp only
  repeat' split
  all_goals simp

@[simp] theorem disarm_accounts (s : State) : (disarm s).io.accounts = s.io.accounts := by
  unfold disarm
  repeat' split
  all_goals simp

@[simp] theorem arm_accounts (id : Nat) (c : Time) (s : State) : (arm id c s).io.accounts = s.io.accounts := by
  simp [arm]

@[simp] theorem judgePropose_accounts (id : Nat) (c : Time) (force : Bool) (s : State) :
    (judgePropose id c force s).2.2.io.accounts = s.io.accounts := by
  unfold judgePropose
  dsimp only
  repeat' split
  all_goals simp

@[simp] theorem takePropose_accounts (src query id : Nat) (c : Time) (force : Bool) (s : State) :
    (takePropose src query id c force s).io.accounts = s.io.accounts := by
  simp [takePropose]

@[simp] theorem takeCancel_accounts (src query id : Nat) (s : State) :
    (takeCancel src query id s).io.accounts = s.io.accounts := by
  unfold takeCancel
  split
  · cases s.stagingState with
    | none => simp
    | some st => cases st <;> simp
  · simp

@[simp] theorem takeQuietRequest_accounts (src query id : Nat) (t : Time) (s : State) :
    (takeQuietRequest src query id t s).io.accounts = s.io.accounts := by
  simp [takeQuietRequest]

@[simp] theorem observeSwitch_accounts (s : State) : (observeSwitch s).io.accounts = s.io.accounts := by
  unfold observeSwitch
  repeat' split
  all_goals simp

@[simp] theorem takeBlockFrame_accounts (id i crc : Nat) (data : List Byte) (len : Nat) (s : State) :
    (takeBlockFrame id i crc data len s).io.accounts = s.io.accounts := by
  simp [takeBlockFrame]

/-! ## The distributor -/

/-- An operation over the distribution record keeps the accounts when it does for every record. -/
@[simp] theorem withDist_accounts (f : Dist → State → State) (s : State)
    (h : ∀ d, (f d s).io.accounts = s.io.accounts) : (withDist f s).io.accounts = s.io.accounts := by
  unfold withDist
  split
  · exact h _
  · rfl

@[simp] theorem raiseImage_accounts (e : Event) (s : State) : (raiseImage e s).io.accounts = s.io.accounts := by
  simp [raiseImage]

@[simp] theorem endQuery_io (s : State) : (endQuery s).io = s.io := rfl
@[simp] theorem settle_io (st : TargetState) (s : State) : (settle st s).io = s.io := rfl
@[simp] theorem settlePolled_io (st : MapStatus) (s : State) : (settlePolled st s).io = s.io := rfl
@[simp] theorem startOp_io (o : SlotOp) (s : State) : (startOp o s).io = s.io := rfl
@[simp] theorem startWrite_io (w : WriteEntry) (rest : List WriteEntry) (s : State) :
    (startWrite w rest s).io = s.io := rfl

@[simp] theorem endDist_accounts (phase : Phase) (c : EndCause) (s : State) :
    (endDist phase c s).io.accounts = s.io.accounts := by
  simp [endDist]

@[simp] theorem placeQuery_accounts (dst id : Nat) (b : ImageBody) (s : State) :
    (placeQuery dst id b s).io.accounts = s.io.accounts := by
  simp [placeQuery]

@[simp] theorem sendQuery_accounts (k : QueryKind) (s : State) : (sendQuery k s).io.accounts = s.io.accounts := by
  simp [sendQuery]

@[simp] theorem sendTo_accounts (i : Nat) (k : QueryKind) (s : State) :
    (sendTo i k s).io.accounts = s.io.accounts := by
  simp [sendTo]

@[simp] theorem endDeferral_accounts (s : State) : (endDeferral s).io.accounts = s.io.accounts := by
  simp [endDeferral]

@[simp] theorem cancelNext_accounts (s : State) : (cancelNext s).io.accounts = s.io.accounts := by
  refine withDist_accounts _ s fun d => ?_
  split <;> simp

@[simp] theorem deferPass_accounts (node : Nat) (why : DeferReason) (s : State) :
    (deferPass node why s).io.accounts = s.io.accounts := by
  simp [deferPass]

@[simp] theorem judgeOwn_accounts (s : State) : (judgeOwn s).io.accounts = s.io.accounts := by
  refine withDist_accounts _ s fun d => ?_
  dsimp only
  split <;> simp

@[simp] theorem proposeTo_accounts (i : Nat) (s : State) : (proposeTo i s).io.accounts = s.io.accounts := by
  cases h : s.ie.dist with
  | none => rw [proposeTo_of_none h]
  | some d => rw [proposeTo_of_some h, ite_io, ite_accounts, deferPass_accounts, sendTo_accounts, ite_self]

@[simp] theorem proposeNext_accounts (s : State) : (proposeNext s).io.accounts = s.io.accounts := by
  refine withDist_accounts _ (s.onDist _) fun d => ?_
  split <;> simp

@[simp] theorem quietRefused_accounts (st : Option Status) (s : State) :
    (quietRefused st s).io.accounts = s.io.accounts := by
  simp [quietRefused]

@[simp] theorem askQuiet_accounts (c : Time) (s : State) : (askQuiet c s).io.accounts = s.io.accounts := by
  unfold askQuiet
  split
  · dsimp only
    split <;> simp
  · split <;> simp

@[simp] theorem beginPass_accounts (s : State) : (beginPass s).io.accounts = s.io.accounts := by
  simp [beginPass]

@[simp] theorem verifyNext_accounts (s : State) : (verifyNext s).io.accounts = s.io.accounts := by
  refine withDist_accounts _ (s.onDist _) fun d => ?_
  split <;> simp

@[simp] theorem loseTargets_accounts (nodes : List Nat) (p : Phase) (s : State) :
    (loseTargets nodes p s).io.accounts = s.io.accounts := by
  simp [loseTargets]

@[simp] theorem endPoll_accounts (s : State) : (endPoll s).io.accounts = s.io.accounts := by
  refine withDist_accounts _ s fun d => ?_
  dsimp only
  repeat' split
  all_goals simp

@[simp] theorem pollNext_accounts (start : Nat) (s : State) : (pollNext start s).io.accounts = s.io.accounts := by
  refine withDist_accounts _ (s.onDist _) fun d => ?_
  split <;> simp

@[simp] theorem announceNext_accounts (s : State) : (announceNext s).io.accounts = s.io.accounts := by
  refine withDist_accounts _ (s.onDist _) fun d => ?_
  repeat' split
  all_goals simp

/-- A reply changes of the accounts what its taking changes. -/
theorem takeReply_accounts (query : Nat) (answers : QueryKind → Bool) (f : Dist → QueryKind → State → State) (s : State)
    (h : ∀ d k x, (f d k x).io.accounts = x.io.accounts) :
    (takeReply query answers f s).io.accounts = s.io.accounts := by
  unfold takeReply
  dsimp only
  repeat' split
  all_goals simp [h]

@[simp] theorem takeAnnounceReply_accounts (query : Nat) (r : AnnounceResult) (s : State) :
    (takeAnnounceReply query r s).io.accounts = s.io.accounts :=
  takeReply_accounts _ _ _ s fun _ _ x => by simp

@[simp] theorem takeMapReport_accounts (query : Nat) (m : MapContent) (s : State) :
    (takeMapReport query m s).io.accounts = s.io.accounts :=
  takeReply_accounts _ _ _ s fun _ _ x => by
    dsimp only
    split <;> simp

@[simp] theorem takeVerifyReport_accounts (query : Nat) (isMatch : Bool) (s : State) :
    (takeVerifyReport query isMatch s).io.accounts = s.io.accounts :=
  takeReply_accounts _ _ _ s fun _ _ x => by simp

@[simp] theorem takeProposeReply_accounts (query : Nat) (r : ProposeResult) (why : DeferReason) (s : State) :
    (takeProposeReply query r why s).io.accounts = s.io.accounts :=
  takeReply_accounts _ _ _ s fun _ _ x => by cases r <;> simp

@[simp] theorem takeCancelReply_accounts (query : Nat) (cancelled : Bool) (s : State) :
    (takeCancelReply query cancelled s).io.accounts = s.io.accounts :=
  takeReply_accounts _ _ _ s fun _ _ x => by simp

@[simp] theorem takeQuietReply_accounts (query : Nat) (st : Status) (s : State) :
    (takeQuietReply query st s).io.accounts = s.io.accounts :=
  takeReply_accounts _ _ _ s fun _ _ x => by simp

@[simp] theorem resendQuery_accounts (d : Dist) (k : QueryKind) (s : State) :
    (resendQuery d k s).io.accounts = s.io.accounts := by
  cases k <;> simp [resendQuery]

@[simp] theorem afterLost_accounts (d : Dist) (k : QueryKind) (s : State) :
    (afterLost d k s).io.accounts = s.io.accounts := by
  cases k <;> simp [afterLost]

@[simp] theorem loseTarget_accounts (d : Dist) (k : QueryKind) (s : State) :
    (loseTarget d k s).io.accounts = s.io.accounts := by
  simp [loseTarget]

@[simp] theorem timeoutQuery_accounts (d : Dist) (k : QueryKind) (s : State) :
    (timeoutQuery d k s).io.accounts = s.io.accounts := by
  unfold timeoutQuery
  dsimp only
  repeat' split
  all_goals simp

@[simp] theorem observeTimeout_accounts (s : State) : (observeTimeout s).io.accounts = s.io.accounts := by
  unfold observeTimeout
  repeat' split
  all_goals simp

@[simp] theorem observeInterval_accounts (s : State) : (observeInterval s).io.accounts = s.io.accounts := by
  refine withDist_accounts _ s fun d => ?_
  repeat' split
  all_goals simp

@[simp] theorem observeDone_accounts (s : State) : (observeDone s).io.accounts = s.io.accounts := by
  refine withDist_accounts _ s fun d => ?_
  split <;> simp

@[simp] theorem observeDrained_accounts (s : State) : (observeDrained s).io.accounts = s.io.accounts := by
  refine withDist_accounts _ s fun d => ?_
  repeat' split
  all_goals simp

@[simp] theorem startRead_accounts (i : Nat) (s : State) : (startRead i s).io.accounts = s.io.accounts := by
  simp [startRead]

@[simp] theorem startFlash_accounts (s : State) : (startFlash s).io.accounts = s.io.accounts := by
  unfold startFlash
  split
  · rfl
  · simp
  · simp
  · refine withDist_accounts _ s fun d => ?_
    split <;> simp

@[simp] theorem abortDist_accounts (c : EndCause) (s : State) : (abortDist c s).io.accounts = s.io.accounts := by
  refine withDist_accounts _ s fun d => ?_
  simp

@[simp] theorem readDone_accounts (success : Bool) (data : List Byte) (s : State) :
    (readDone success data s).io.accounts = s.io.accounts := by
  unfold readDone
  split
  · split
    · split
      · refine withDist_accounts _ (s.onIe _) fun d => ?_
        dsimp only
        split <;> simp
      · simp
    · simp
  · rfl

@[simp] theorem distributeStart_accounts (id : Nat) (replace : Bool) (targets : List Nat) (s : State) :
    (distributeStart id replace targets s).state.io.accounts = s.io.accounts := by
  unfold distributeStart
  repeat' split
  all_goals simp

@[simp] theorem distributeAbort_accounts (s : State) : (distributeAbort s).state.io.accounts = s.io.accounts := by
  unfold distributeAbort
  split <;> simp

/-! ## The Control Unit -/

@[simp] theorem mapEvents_accounts (f : Category → EventRec → EventRec) (io : Io) :
    (mapEvents f io).accounts = io.accounts := rfl

@[simp] theorem sendNotices_accounts (p : Category → Bool) (io : Io) : (sendNotices p io).accounts = io.accounts :=
  foldl_kept Io.accounts _ _ io fun x c => sendNotice_accounts c x

@[simp] theorem setEnables_accounts (mask : Nat) (s : State) : (setEnables mask s).io.accounts = s.io.accounts := by
  simp [setEnables]

@[simp] theorem register_accounts (r : Registration) (s : State) : (register r s).io.accounts = s.io.accounts := by
  simp [register]

@[simp] theorem setAdmission_accounts (port setting : Nat) (s : State) :
    (setAdmission port setting s).state.io.accounts = s.io.accounts := by
  unfold setAdmission
  repeat' split
  all_goals rfl

@[simp] theorem registerController_accounts (node port : Nat) (a : Addr) (s : State) :
    (registerController node port a s).state.io.accounts = s.io.accounts := by
  unfold registerController
  repeat' split
  all_goals simp

/-! ## Radio sideband events -/

@[simp] theorem takeAssociate_accounts (r : Radio) (a : Addr) (level : Int) (s : State) :
    (takeAssociate r a level s).io.accounts = s.io.accounts := by
  unfold takeAssociate
  dsimp only
  split
  · simp
  · split
    · next h => simp [roomForStation_io h]
    · simp

@[simp] theorem takeSignal_accounts (r : Radio) (a : Addr) (level : Int) (s : State) :
    (takeSignal r a level s).io.accounts = s.io.accounts := by
  unfold takeSignal
  dsimp only
  split <;> simp

@[simp] theorem takeDisassociate_accounts (r : Radio) (a : Addr) (s : State) :
    (takeDisassociate r a s).io.accounts = s.io.accounts := by
  unfold takeDisassociate
  dsimp only
  split <;> simp

@[simp] theorem takeHeard_io (a : Addr) (level : Int) (s : State) : (takeHeard a level s).io = s.io := by
  unfold takeHeard
  dsimp only
  repeat' split
  all_goals simp

/-! ## Requests and frames of the management kinds -/

/-- What the frame's handling keeps of the accounts, its arrival keeps. -/
@[simp] theorem takeManaged_accounts (p : Port) (k : Kind) (len : Nat) (handle : State → State) (s : State)
    (hh : ∀ x, (handle x).io.accounts = x.io.accounts) :
    (takeManaged p k len handle s).io.accounts = s.io.accounts := by
  unfold takeManaged
  dsimp only
  split
  · rw [hh]
    simp
  · simp

@[simp] theorem takeImage_accounts (b : ImageBody) (handle : State → State) (s : State)
    (hh : ∀ x, (handle x).io.accounts = x.io.accounts) : (takeImage b handle s).io.accounts = s.io.accounts :=
  takeManaged_accounts _ _ _ handle s hh

/-! ## Control frames -/

@[simp] theorem handRequest_accounts (p : Port) (dst : Nat) (refused : Bool) (payload : List Byte) (io : Io) :
    (handRequest p dst refused payload io).accounts = io.accounts := by
  unfold handRequest
  dsimp only
  split
  · rfl
  · split <;> simp

@[simp] theorem relayRequest_accounts (h : MeshHdr) (payload : List Byte) (n : Nat) (io : Io) :
    (relayRequest h payload n io).accounts = io.accounts := by
  simp [relayRequest]

@[simp] theorem takeLocalRequest_accounts (p : Port) (h : MeshHdr) (payload : List Byte) (n : Nat) (io : Io) :
    (takeLocalRequest p h payload n io).accounts = io.accounts := by
  unfold takeLocalRequest
  dsimp only
  repeat' split
  all_goals simp

@[simp] theorem relayHome_accounts (h : MeshHdr) (c : Content) (n : Nat) (io : Io) :
    (relayHome h c n io).accounts = io.accounts := by
  unfold relayHome
  dsimp only
  repeat' split
  all_goals simp

@[simp] theorem countMalformed_accounts (p : Port) (io : Io) : (countMalformed p io).accounts = io.accounts := rfl
@[simp] theorem countWrongKind_accounts (p : Port) (io : Io) : (countWrongKind p io).accounts = io.accounts := rfl
@[simp] theorem countNotForNode_accounts (io : Io) : (countNotForNode io).accounts = io.accounts := rfl
@[simp] theorem countUnknown_accounts (p : Port) (io : Io) : (countUnknown p io).accounts = io.accounts := rfl

@[simp] theorem takeControl_accounts (p : Port) (h : MeshHdr) (payload : List Byte) (n : Nat) (io : Io) :
    (takeControl p h payload n io).accounts = io.accounts := by
  unfold takeControl
  repeat' split
  all_goals simp

@[simp] theorem takeNotice_accounts (h : MeshHdr) (payload : List Byte) (n : Nat) (io : Io) :
    (takeNotice h payload n io).accounts = io.accounts := by
  unfold takeNotice
  split <;> simp

/-- What the frame's handling keeps of the accounts, its arrival keeps. -/
@[simp] theorem takeKept_accounts (p : Port) (k : Kind) (len : Nat) (handle : Nat → Io → Io) (io : Io)
    (hh : ∀ n x, (handle n x).accounts = x.accounts) : (takeKept p k len handle io).accounts = io.accounts := by
  unfold takeKept
  dsimp only
  split <;> simp [hh]

/-! ## The Time Base, but for the cycle start -/

@[simp] theorem noticeTs_io (s : State) : (noticeTs s).io = s.io := rfl
@[simp] theorem countTb_io (f : SyncCounters → SyncCounters) (s : State) : (s.countTb f).io = s.io := rfl

@[simp] theorem followTs_io (s : State) : (followTs s).io = s.io := by
  simp [followTs]

@[simp] theorem tick_io (s : State) : (tick s).io = s.io := by
  simp [tick]

@[simp] theorem afterStep_accounts (moved : Bool) (s : State) : (afterStep moved s).io.accounts = s.io.accounts := by
  simp [afterStep]

@[simp] theorem dropBeacon_accounts (io : Io) : (dropBeacon io).accounts = io.accounts := by
  unfold dropBeacon
  split <;> simp

@[simp] theorem exitRoot_accounts (s : State) : (exitRoot s).io.accounts = s.io.accounts := by
  simp [exitRoot]

@[simp] theorem setRate_io (n d : Nat) (s : State) : (setRate n d s).state.io = s.io := by
  simp [setRate]

@[simp] theorem syncControl_accounts (enable : Bool) (s : State) :
    (syncControl enable s).state.io.accounts = s.io.accounts := by
  unfold syncControl
  split <;> simp

@[simp] theorem yieldByPriority_accounts (s : State) : (yieldByPriority s).io.accounts = s.io.accounts := by
  simp [yieldByPriority]

@[simp] theorem setSyncParams_accounts (f : SyncFields) (s : State) :
    (setSyncParams f s).state.io.accounts = s.io.accounts := by
  simp [setSyncParams]

@[simp] theorem presetTime_io (delta : Int) (s : State) : (presetTime delta s).state.io = s.io := by
  simp [presetTime]

@[simp] theorem setCalendar_io (w : Nat) (s : State) : (setCalendar w s).state.io = s.io := by
  simp [setCalendar]

@[simp] theorem correctRate_accounts (b : Beacon) (ltCap : Time) (s : State) :
    (correctRate b ltCap s).io.accounts = s.io.accounts := by
  unfold correctRate
  dsimp only
  split
  · rfl
  · split <;> simp

@[simp] theorem adoptCalendar_io (b : Beacon) (s : State) : (adoptCalendar b s).io = s.io := by
  unfold adoptCalendar
  split <;> simp

@[simp] theorem afterBeacon_accounts (b : Beacon) (ltCap : Time) (s : State) :
    (afterBeacon b ltCap s).io.accounts = s.io.accounts := by
  simp [afterBeacon]

/-- A taken beacon changes of the accounts what its events change. -/
theorem takeStep_accounts (b : Beacon) (ltCap : Time) (new : TimeBase → TimeBase) (events : State → State) (s : State)
    (he : ∀ x, (events x).io.accounts = x.io.accounts) :
    (takeStep b ltCap new events s).io.accounts = s.io.accounts := by
  simp [takeStep, he]

@[simp] theorem takeFollowed_accounts (b : Beacon) (ltCap : Time) (s : State) :
    (takeFollowed b ltCap s).io.accounts = s.io.accounts := by
  unfold takeFollowed
  exact takeStep_accounts b ltCap _ _ s fun x => by simp

@[simp] theorem takeFollow_accounts (another : Bool) (b : Beacon) (ltCap : Time) (s : State) :
    (takeFollow another b ltCap s).io.accounts = s.io.accounts := by
  unfold takeFollow
  rw [takeStep_accounts, exitRoot_accounts]
  intro x
  split <;> simp

@[simp] theorem takeBeacon_accounts (b : Beacon) (ltCap : Time) (s : State) :
    (takeBeacon b ltCap s).io.accounts = s.io.accounts := by
  unfold takeBeacon
  dsimp only
  repeat' split
  all_goals simp

@[simp] theorem applyPreset_accounts (s : State) : (applyPreset s).io.accounts = s.io.accounts := by
  unfold applyPreset
  split <;> simp

@[simp] theorem enterRoot_accounts (s : State) : (enterRoot s).io.accounts = s.io.accounts := by
  simp [enterRoot]

@[simp] theorem watch_accounts (s : State) : (watch s).io.accounts = s.io.accounts := by
  unfold watch
  dsimp only
  split <;> simp

@[simp] theorem placeBeacon_accounts (f : QFrame) (io : Io) : (placeBeacon f io).2.accounts = io.accounts := by
  have put (x : Io) : ((x.onEs fun e => { e with beaconPos := some f }).onPort .fp3 fun e =>
      { e with choiceDue := true }).accounts = x.accounts := by simp
  unfold placeBeacon
  split
  · exact put _
  · exact put io

@[simp] theorem sendBeacon_accounts (mtb : Time) (s : State) : (sendBeacon mtb s).io.accounts = s.io.accounts := by
  simp [sendBeacon]

@[simp] theorem periodEnd_accounts (s : State) : (periodEnd s).io.accounts = s.io.accounts := by
  simp [periodEnd]

/-! ## Frames as a port delivers them -/

@[simp] theorem allocArrival_accounts (p : Port) (f : List Byte) (io : Io) :
    (allocArrival p f io).2.accounts = io.accounts := by
  unfold allocArrival
  repeat' split
  all_goals simp

@[simp] theorem dropArrival_io (n : Nat) (count : Io → Io) (s : State) :
    (dropArrival n count s).io = count (freeCells n s.io) := rfl

@[simp] theorem takeStation_accounts (m : StationMsg) (s : State) : (takeStation m s).io.accounts = s.io.accounts := by
  cases m <;> simp [takeStation]

@[simp] theorem arriveStation_accounts (payload : List Byte) (n : Nat) (s : State) :
    (arriveStation payload n s).io.accounts = s.io.accounts := by
  unfold arriveStation
  split <;> simp

@[simp] theorem takeImageMsg_accounts (src : Nat) (m : ImageMsg) (s : State) :
    (takeImageMsg src m s).io.accounts = s.io.accounts := by
  unfold takeImageMsg
  split <;> simp

@[simp] theorem arriveImage_accounts (src : Nat) (payload : List Byte) (n : Nat) (s : State) :
    (arriveImage src payload n s).io.accounts = s.io.accounts := by
  unfold arriveImage
  split
  · split <;> simp
  · simp

@[simp] theorem arriveData_accounts (h : RawHdr) (payload : List Byte) (n : Nat) (s : State) :
    (arriveData h payload n s).io.accounts = s.io.accounts := by
  simp [arriveData]

@[simp] theorem arriveBeacon_accounts (payload : List Byte) (stamp : Option Time) (n : Nat) (s : State) :
    (arriveBeacon payload stamp n s).io.accounts = s.io.accounts := by
  unfold arriveBeacon
  split <;> simp

@[simp] theorem arriveBackhaul_accounts (k : Kind) (h : RawHdr) (payload : List Byte) (stamp : Option Time) (n : Nat)
    (s : State) : (arriveBackhaul k h payload stamp n s).io.accounts = s.io.accounts := by
  unfold arriveBackhaul
  repeat' split
  all_goals simp

@[simp] theorem arriveMesh_accounts (p : Port) (m : List Byte) (stamp : Option Time) (n : Nat) (s : State) :
    (arriveMesh p m stamp n s).io.accounts = s.io.accounts := by
  unfold arriveMesh
  dsimp only
  repeat' split
  all_goals simp

@[simp] theorem deliverFrame_accounts (p : Port) (f : List Byte) (stamp : Option Time) (s : State) :
    (deliverFrame p f stamp s).io.accounts = s.io.accounts := by
  unfold deliverFrame
  dsimp only
  repeat' split
  all_goals simp

/-! ## The moves of the credits -/

/-- The ways one port's credits and parameters move in one step: kept, one credit charged (R74), reloaded (R72), or
cleared (R72). -/
inductive CreditMove (a b : PortEgress) : Prop where
  | kept (credit : b.credit = a.credit) (inUse : b.inUse = a.inUse)
  | charged (k n : Nat) (credit : b.credit = a.credit.set k (charged (a.credit.get k) n)) (inUse : b.inUse = a.inUse)
  | reloaded (credit : b.credit = a.reload.credit) (inUse : b.inUse = a.written)
  | cleared (credit : b.credit = ⟨0, 0, 0, 0⟩)

/-- A move is one of the accounts alone. -/
theorem creditMove_account {a b : PortEgress} : CreditMove a.account b.account ↔ CreditMove a b where
  mp
    | .kept hc hi => .kept hc hi
    | .charged k n hc hi => .charged k n hc hi
    | .reloaded hc hi => .reloaded hc hi
    | .cleared hc => .cleared hc
  mpr
    | .kept hc hi => .kept hc hi
    | .charged k n hc hi => .charged k n hc hi
    | .reloaded hc hi => .reloaded hc hi
    | .cleared hc => .cleared hc

theorem CreditMove.congr {a b c d : PortEgress} (m : CreditMove a b) (ha : c.account = a.account)
    (hb : d.account = b.account) : CreditMove c d := by
  rwa [← creditMove_account, ha, hb, creditMove_account]

/-- Each port's credits and parameters move in one of the ways listed. -/
def CreditsMove (a b : Io) : Prop := ∀ p, CreditMove (a.port p) (b.port p)

theorem CreditsMove.congr {a b c d : Io} (m : CreditsMove a b) (ha : c.accounts = a.accounts)
    (hb : d.accounts = b.accounts) : CreditsMove c d :=
  fun p => (m p).congr (account_eq_of_accounts ha p) (account_eq_of_accounts hb p)

theorem CreditsMove.refl (a : Io) : CreditsMove a a := fun _ => .kept rfl rfl

theorem CreditsMove.of_accounts {a b : Io} (h : b.accounts = a.accounts) : CreditsMove a b :=
  (CreditsMove.refl a).congr rfl h

/-- An update of one port moves the credits as it moves that port's. -/
theorem CreditsMove.onPort (p : Port) (f : PortEgress → PortEgress) (io : Io)
    (m : CreditMove (io.port p) (f (io.port p))) : CreditsMove io (io.onPort p f) := fun q => by
  by_cases e : p = q
  · subst e
    simpa using m
  · rw [port_onPort_of_ne _ _ e]
    exact .kept rfl rfl

/-- A request moves the credits as its rule does, or not at all. -/
theorem CreditsMove.request {h : ReqHead} {code : Nat} {rule : State → Answer} {s : State}
    (m : CreditsMove s.io (rule s).state.io) : CreditsMove s.io (request h code rule s).io := by
  rcases request_accounts_or h code rule s with e | e
  · exact .of_accounts e
  · exact m.congr rfl e

/-! ## The operations that move the credits, and those that change another field of the account -/

/-- A release charges the class it takes a frame from (R74). -/
theorem release_creditsMove (p : Port) (c : Choice) (io : Io) : CreditsMove io (release p c io) := by
  unfold release
  split
  · split
    · next f _ =>
      exact (CreditsMove.onPort p (fun x => { x with tx := .busy f }) (io.onEs fun e => { e with beaconPos := none })
        (.kept rfl rfl)).congr rfl rfl
    · exact .refl io
  · split
    · exact .onPort p _ io (.kept rfl rfl)
    · exact .refl io
  · split
    · next f _ _ => exact .onPort p _ io (.charged _ f.sentLen rfl rfl)
    · exact .refl io

theorem releaseNext_creditsMove (p : Port) (tb : TimeBase) (io : Io) : CreditsMove io (releaseNext p tb io) := by
  have due : (io.onPort p fun x => { x with choiceDue := false }).accounts = io.accounts := by simp
  unfold releaseNext
  dsimp only
  split
  · split
    · exact (release_creditsMove p _ _).congr due.symm rfl
    · exact .of_accounts due
  · exact .refl io

/-- A transmit-done leaves the slot free, and the rest of the account as it was (R75). -/
theorem txEnd_accounts (p : Port) (f : QFrame) (success : Bool) (s : State) :
    (txEnd p f success s).io.accounts =
      (s.io.onPort p fun x => { x with tx := .free, choiceDue := true }).accounts := by
  unfold txEnd
  cases f.mark <;> simp [txFailed]

theorem transmitDone_creditsMove (p : Port) (success : Bool) (s : State) :
    CreditsMove s.io (transmitDone p success s).io := by
  have freed : CreditsMove s.io (s.io.onPort p fun x => { x with tx := .free, choiceDue := true }) :=
    .onPort p _ _ (.kept rfl rfl)
  unfold transmitDone
  split
  · exact .refl _
  · exact freed
  · exact freed.congr rfl (txEnd_accounts p _ success s)

/-- SET QUEUE PARAMETERS writes the limit and the parameters as written (R71). -/
theorem setQueueParams_creditsMove (port cls : Nat) (f : QueueFields) (s : State) :
    CreditsMove s.io (setQueueParams port cls f s).state.io := by
  unfold setQueueParams
  split
  · exact .refl _
  · split
    · exact .refl _
    · exact .onPort _ _ _ (.kept rfl rfl)

/-- At a cycle start the Egress Service reloads every account (R72); a commit that takes effect changes none. -/
theorem egressCycle_accounts (count : Nat) (mt : Time) (quiet : Bool) (io : Io) :
    (egressCycle count mt quiet io).accounts = io.accounts.map fun e => e.reload.account := by
  have reloaded : (io.onEs fun e => { e with ports := e.ports.map PortEgress.reload, seen := none }).accounts =
      io.accounts.map fun e => e.reload.account := rfl
  unfold egressCycle
  dsimp only
  split
  · split
    · rw [takeWindowCommit_accounts, reloaded]
    · exact reloaded
  · exact reloaded

/-- A cycle start reloads every account, and nothing else in it changes one (R72). -/
theorem cycleStart_accounts (s : State) :
    (cycleStart s).io.accounts = s.io.accounts.map fun e => e.reload.account := by
  simp [cycleStart, egressCycle_accounts]

theorem cycleStart_account (s : State) (p : Port) :
    ((cycleStart s).io.port p).account = (s.io.port p).reload.account := by
  rw [← Io.accounts_get, cycleStart_accounts, PerPort.get_map, Io.accounts_get]
  rfl

theorem observeCycle_creditsMove (s : State) : CreditsMove s.io (observeCycle s).io := by
  unfold observeCycle
  split
  · exact .refl _
  · exact fun p => CreditMove.congr (.reloaded rfl rfl) rfl (cycleStart_account s p)

/-- RESTART clears every credit (R72). -/
theorem restart_credit (s : State) (p : Port) : ((restart s).io.port p).credit = ⟨0, 0, 0, 0⟩ := by
  refine ((kept_raise (.restarted s.node s.mt) (restartUnits s).io).credit p).trans ?_
  cases p <;> rfl

/-- Pin reset clears every credit (R72). -/
theorem pinReset_credit (st : Straps) (s : State) (p : Port) : ((pinReset st s).io.port p).credit = ⟨0, 0, 0, 0⟩ := by
  cases p <;> rfl

/-! ## Commands and steps -/

/-- Every command answers a next state, with one of the moves of the credits. The first six named are those that change
an account; each other one keeps the accounts, by the lemma on its meaning. -/
theorem exec_creditsMove (i : Instr) (s : State) : ∃ t, exec i s = .next t ∧ CreditsMove s.io t.io := by
  cases i
  case pinReset st => exact ⟨_, rfl, fun p => .cleared (pinReset_credit st s p)⟩
  case cycleStart => exact ⟨_, rfl, observeCycle_creditsMove s⟩
  case frameRelease p => exact ⟨_, rfl, releaseNext_creditsMove p s.tb s.io⟩
  case transmitDone p success => exact ⟨_, rfl, transmitDone_creditsMove p success s⟩
  case restart h => exact ⟨_, rfl, .request fun p => .cleared (restart_credit s p)⟩
  case setQueueParameters h port cls f => exact ⟨_, rfl, .request (setQueueParams_creditsMove port cls f s)⟩
  case responseNoticeRelay notice nodes payload =>
    cases notice <;> exact ⟨_, rfl, .of_accounts (by simp)⟩
  case pendingCutoverReached slot =>
    refine ⟨_, rfl, .of_accounts ?_⟩
    split <;> rfl
  case setEventEnables h mask => exact ⟨_, rfl, .of_accounts (request_accounts _ _ _ s (setEnables_accounts mask))⟩
  case mapQuery src query id start =>
    exact ⟨_, rfl, .of_accounts (takeImage_accounts _ _ s (takeMapQuery_accounts src query id start))⟩
  case clearCounters | writeEntryFlow | writeEntryStation | writeEntryContext | clearEntryContext | discardWindowTable
      | discardScheduleTables | ackEvents | setFramePathParameters | setClassifierParameters | setBackhaulParameters
      | setSteeringParameters | setHandoffParameters | setScheduleParameters | setImageParameters | requestQuiet =>
    exact ⟨_, rfl, .of_accounts (request_accounts _ _ _ s fun _ => rfl)⟩
  all_goals exact ⟨_, rfl, .of_accounts (by simp)⟩

theorem creditsMove_of_exec {i : Instr} {s t : State} (h : exec i s = .next t) : CreditsMove s.io t.io := by
  obtain ⟨u, hu, hm⟩ := exec_creditsMove i s
  cases hu.symm.trans h
  exact hm

theorem creditsMove_of_idle {s t : State} (h : idle s = .next t) : CreditsMove s.io t.io := by
  unfold idle at h
  split at h
  · exact creditsMove_of_exec h
  · split at h
    · next r rest _ =>
      have taken : (s.onIo (Io.onCu fun c => { c with queue := rest })).io.accounts = s.io.accounts := rfl
      unfold runHead at h
      dsimp only at h
      split at h
      · exact (creditsMove_of_exec h).congr taken.symm rfl
      · cases h
        exact .of_accounts ((request_accounts _ _ _ _ fun _ => rfl).trans taken)
    · cases h
      exact .of_accounts (congrArg Io.accounts (tick_io s))

/-- Every step moves the credits in one of the ways listed. -/
theorem creditsMove_of_step {s t : State} (h : step s = .next t) : CreditsMove s.io t.io := by
  unfold step at h
  split at h
  · exact creditsMove_of_idle h
  · next i rest _ => exact creditsMove_of_exec (s := { s with pending := rest }) h

/-! ## The range of the credits (R72) -/

/-- The reload in terms of the members of the group (R72). -/
theorem reload_credit_get (e : PortEgress) (k : Nat) :
    e.reload.credit.get k = min (e.credit.get k + ((e.written.get k).quantum : Int)) ((e.written.get k).cap : Int) := by
  match k with
  | 0 | 1 | 2 | _ + 3 => rfl

/-- A write of one member of a group writes that member wherever it is named, and no other. -/
theorem PerClass.get_set {α : Type} (v : PerClass α) (j : Nat) (a : α) (k : Nat) :
    (v.set j a).get k = a ∧ v.get k = v.get j ∨ (v.set j a).get k = v.get k := by
  match j, k with
  | 0, 0 | 1, 1 | 2, 2 | _ + 3, _ + 3 => exact .inl ⟨rfl, rfl⟩
  | 0, 1 | 0, 2 | 0, _ + 3 | 1, 0 | 1, 2 | 1, _ + 3 | 2, 0 | 2, 1 | 2, _ + 3 | _ + 3, 0 | _ + 3, 1 | _ + 3, 2 =>
    exact .inr rfl

theorem PerClass.get_zeros (k : Nat) : (⟨0, 0, 0, 0⟩ : PerClass Int).get k = 0 := by
  match k with
  | 0 | 1 | 2 | _ + 3 => rfl

/-- The credits of one port lie in -1535..C of their class. -/
def PortEgress.CreditsInRange (e : PortEgress) : Prop :=
  ∀ k, -1535 ≤ e.credit.get k ∧ e.credit.get k ≤ ((e.inUse.get k).cap : Int)

theorem creditsInRange_iff (s : State) : CreditsInRange s ↔ ∀ p, (s.io.port p).CreditsInRange := Iff.rfl

/-- A charge stays at or above -1535, and takes a credit no higher (R74). -/
theorem charged_mem {c : Int} (h : -1535 ≤ c) (n : Nat) : -1535 ≤ charged c n ∧ charged c n ≤ c := by
  unfold charged
  omega

theorem CreditMove.inRange {a b : PortEgress} (m : CreditMove a b) (ha : a.CreditsInRange) : b.CreditsInRange := by
  intro k
  obtain ⟨low, high⟩ := ha k
  cases m with
  | kept hc hi => exact hc ▸ hi ▸ ⟨low, high⟩
  | charged j n hc hi =>
    rw [hc, hi]
    rcases a.credit.get_set j (Machine.charged (a.credit.get j) n) k with ⟨e, same⟩ | e
    · obtain ⟨above, below⟩ := charged_mem (ha j).1 n
      rw [e]
      exact ⟨above, Int.le_trans below (same ▸ high)⟩
    · rw [e]
      exact ⟨low, high⟩
  | reloaded hc hi =>
    rw [hc, hi, reload_credit_get]
    omega
  | cleared hc =>
    rw [hc, PerClass.get_zeros]
    omega

theorem creditsInRange_keptByStep : KeptByStep CreditsInRange := fun s t hs h =>
  (creditsInRange_iff t).2 fun p => (creditsMove_of_step h p).inRange ((creditsInRange_iff s).1 hs p)

/-! ## The outcomes of a cycle start, of pin reset and of RESTART -/

theorem exec_cycleStart {s : State} (h : s.tb.count ≠ s.tb.lastCount) : exec .cycleStart s = .next (cycleStart s) :=
  congrArg Host.Outcome.next (if_neg h)

theorem exec_pinReset (st : Straps) (s : State) : exec (.pinReset st) s = .next (pinReset st s) := rfl

/-- What a cycle start leaves of a port (R72). -/
theorem cycleStart_port (s : State) (p : Port) :
    ((cycleStart s).io.port p).inUse = (s.io.port p).written ∧ ((cycleStart s).io.port p).tx = (s.io.port p).tx ∧
      ∀ k, ((cycleStart s).io.port p).credit.get k =
        min ((s.io.port p).credit.get k + (((s.io.port p).written.get k).quantum : Int))
          (((s.io.port p).written.get k).cap : Int) := by
  obtain ⟨credit, -, inUse, tx⟩ := account_eq_iff.1 (cycleStart_account s p)
  exact ⟨inUse, tx, fun k => credit ▸ reload_credit_get _ k⟩

/-- RESTART answered leaves every credit 0 (R72). -/
theorem answered_restart_credit (h : ReqHead) (code : Nat) (s : State) (p : Port) :
    ((answered h code .ok [] (restart s)).io.port p).credit = ⟨0, 0, 0, 0⟩ :=
  ((kept_respond h.tag code .ok [] (restart s).io).credit p).trans (restart_credit s p)

end Sys2Proof.Machine
end

section
/-! PROOFS. The two DISCARDs (R86, R131). -/

namespace Sys2Proof.Machine

theorem discardWindow_eq (s : State) :
    discardWindow s = ok (s.onIo (Io.onEs fun e => { e with staged := e.active, pending := none })) := rfl

theorem discardSched_eq (s : State) :
    discardSched s = ok { s with se := { s.se with staged := s.se.active, pending := none } } := rfl

theorem exec_discardWindowTable (h : ReqHead) (s : State) :
    exec (.discardWindowTable h) s = .next (request h 8 discardWindow s) := rfl

theorem exec_discardScheduleTables (h : ReqHead) (s : State) :
    exec (.discardScheduleTables h) s = .next (request h 8 discardSched s) := rfl

end Sys2Proof.Machine
end

section
/-! PROOFS. The statements on the credits and on the DISCARDs. -/

open Sys2Proof Sys2Proof.Machine

/-- Settles O6: the range by the moves a step can make of the credits, the cycle start by the accounts it leaves. -/
theorem creditsReloadAndStayInRange : Obligations.CreditsReloadAndStayInRange := by
  refine ⟨creditsInRange_keptByStep, fun s hc => ?_, fun st s => ?_, fun h s ha => ?_⟩
  · exact ⟨cycleStart s, exec_cycleStart hc, cycleStart_port s⟩
  · exact ⟨pinReset st s, exec_pinReset st s, fun p k => by rw [pinReset_credit, PerClass.get_zeros]⟩
  · refine ⟨answered h 13 .ok [] (restart s), ?_, fun p k => by rw [answered_restart_credit, PerClass.get_zeros]⟩
    rw [exec_restart, request_of_admitted ha]
    rfl

/-- Settles O25: a DISCARD has one outcome, whatever the staged copy and the pending commit. -/
theorem discardsRestoreTheStagedCopies : Obligations.DiscardsRestoreTheStagedCopies := by
  refine fun h s ha => ⟨?_, ?_⟩
  · rw [exec_discardWindowTable, request_of_admitted ha, discardWindow_eq]
    rfl
  · rw [exec_discardScheduleTables, request_of_admitted ha, discardSched_eq]
    rfl

end

section
/-! PROOFS. SET SCHEDULE PARAMETERS, and the charge of a minute in one entry of the station table (R141, R148). -/

namespace Sys2Proof.Machine

theorem exec_setScheduleParameters (h : ReqHead) (x : Nat) (s : State) :
    exec (.setScheduleParameters h x) s =
      .next (request h 30 (fun y => ok (y.onSe fun e => { e with threshold := clamp 1 1000000 x })) s) := rfl

/-- What RESTART leaves of the Schedule Engine (R150). -/
theorem answered_restart_se (h : ReqHead) (code : Nat) (s : State) :
    (answered h code .ok [] (restart s)).se = s.se.restart := rfl

theorem StationUnit.getElem?_mapWhere (p : Station → Bool) (f : Station → Station) (u : StationUnit) (i : Nat) :
    (u.mapWhere p f).table[i]? = u.table[i]?.map (Option.map fun e => if p e then f e else e) :=
  List.getElem?_map

/-- The threshold decides whether a METERED station in service with a known allowance is charged (R141). -/
theorem chargeable_of_serving {e : Station} {r : Radio} {a : Allowance} (hst : e.st = .serving r a)
    (hk : a.known = true) (heff : e.eff = some .metered) (threshold : Nat) :
    chargeable threshold e = decide (threshold ≤ e.activity) := by
  simp [chargeable, hst, hk, heff]

/-- The charge of a minute, entry by entry (R135 step 1, R141). -/
theorem chargeMinute_getElem? {s : State} {i : Nat} {e : Station} (he : s.su.table[i]? = some (some e)) :
    (chargeMinute s).su.table[i]? =
      some (some (if chargeable s.se.threshold e then { e with st := e.st.charge } else e)) :=
  (StationUnit.getElem?_mapWhere _ _ s.su i).trans (by rw [he]; rfl)

/-- The charge of a METERED station in service with a known allowance: its remaining seconds alone change, where its
activity bytes reach the threshold (R141). -/
theorem chargeMinute_serving {s : State} {i : Nat} {e : Station} {r : Radio} {a : Allowance}
    (he : s.su.table[i]? = some (some e)) (hst : e.st = .serving r a) (hk : a.known = true)
    (heff : e.eff = some .metered) :
    (chargeMinute s).su.table[i]? = some (some
      { e with st := .serving r { a with
          remaining := if s.se.threshold ≤ e.activity then a.remaining - 60 else a.remaining } }) := by
  rw [chargeMinute_getElem? he, chargeable_of_serving hst hk heff]
  by_cases active : s.se.threshold ≤ e.activity
  · simp [active, hst, StState.charge]
  · simp [active, ← hst]

end Sys2Proof.Machine
end

section
/-! PROOFS. The statement on the activity threshold. -/

open Sys2Proof Sys2Proof.Machine

/-- Settles O20: the write and RESTART by their one outcome, pin reset by its state, and the charge by the charge of one
entry. -/
theorem setScheduleParametersWritesTheThreshold : Obligations.SetScheduleParametersWritesTheThreshold := by
  refine ⟨fun h x s ha => ?_, fun st s => ?_, fun h s ha => ?_, fun s i e r a he hst hk heff => ?_⟩
  · rw [exec_setScheduleParameters, request_of_admitted ha]
    rfl
  · exact ⟨pinReset st s, exec_pinReset st s, rfl⟩
  · refine ⟨answered h 13 .ok [] (restart s), ?_, by rw [answered_restart_se]; rfl⟩
    rw [exec_restart, request_of_admitted ha]
    rfl
  · exact chargeMinute_serving he hst hk heff

end
